-- ==== Sys2Proof/Word.lean ====
section
/-! DEFINITION. The widths and byte strings of the block: the 32-bit register word (00_scope.md R8), the byte, and byte strings
of the fixed lengths the rules name (4, 16 and 32 bytes; 00_scope.md R8, R10). The functions that pack bytes into words are in
Machine/Bytes.lean. -/

namespace Sys2Proof

/-- A byte. -/
abbrev Byte := BitVec 8

/-- A register word; every register is 32 bits (10_state.md, first paragraph; 00_scope.md R8). -/
abbrev Word := BitVec 32

/-- A byte string of 4 bytes, `b0` first: what one register word packs (20_memory.md R50), and a word of the AES key
schedule (49_primitives.md R118). -/
structure Quad where
  b0 : Byte
  b1 : Byte
  b2 : Byte
  b3 : Byte
deriving DecidableEq, Repr

/-- A byte string of 16 bytes, as four groups of 4 in order: a cipher block. Group `c` is column `c` of the AES state
(49_primitives.md R115). -/
structure Block where
  q0 : Quad
  q1 : Quad
  q2 : Quad
  q3 : Quad
deriving DecidableEq, Repr

/-- A byte string of 32 bytes, as eight groups of 4 in order: a key or a hash. -/
structure Bytes32 where
  q0 : Quad
  q1 : Quad
  q2 : Quad
  q3 : Quad
  q4 : Quad
  q5 : Quad
  q6 : Quad
  q7 : Quad
deriving DecidableEq, Repr

/-- Four register words: the ranges DIN, DOUT and CHAIN (10_state.md R30 to R32). -/
structure Words4 where
  w0 : Word
  w1 : Word
  w2 : Word
  w3 : Word
deriving DecidableEq, Repr

/-- Eight words: the range KEY (10_state.md R33), and the hash value V0..V7 of SHA-256 (49_primitives.md R110). -/
structure Words8 where
  w0 : Word
  w1 : Word
  w2 : Word
  w3 : Word
  w4 : Word
  w5 : Word
  w6 : Word
  w7 : Word
deriving DecidableEq, Repr

/-- Four zero bytes. -/
def Quad.zero : Quad := ⟨0, 0, 0, 0⟩

/-- Sixteen zero bytes. -/
def Block.zero : Block := ⟨Quad.zero, Quad.zero, Quad.zero, Quad.zero⟩

/-- Four zero words. -/
def Words4.zero : Words4 := ⟨0, 0, 0, 0⟩

/-- Eight zero words. -/
def Words8.zero : Words8 := ⟨0, 0, 0, 0, 0, 0, 0, 0⟩

end Sys2Proof
end

