-- ==== Sys2Proof/Machine/Bytes.lean ====
section
/-! DEFINITION. Packing bytes into words and byte strings into register ranges (00_scope.md R10, 20_memory.md R50), and the byte
strings' bytewise operations. -/

namespace Sys2Proof

/-- `le32` of four bytes (00_scope.md R10): byte `j` is bits `[8j+7 : 8j]` (20_memory.md R50). -/
def Quad.toWordLE (q : Quad) : Word :=
  q.b0.setWidth 32 ||| q.b1.setWidth 32 <<< 8 ||| q.b2.setWidth 32 <<< 16 ||| q.b3.setWidth 32 <<< 24

/-- `bytes_le32` of a word (00_scope.md R10). -/
def Quad.ofWordLE (w : Word) : Quad :=
  ⟨w.extractLsb' 0 8, w.extractLsb' 8 8, w.extractLsb' 16 8, w.extractLsb' 24 8⟩

/-- The word of four bytes read big-endian, as SHA-256 reads them (49_primitives.md R107). -/
def Quad.toWordBE (q : Quad) : Word :=
  q.b0.setWidth 32 <<< 24 ||| q.b1.setWidth 32 <<< 16 ||| q.b2.setWidth 32 <<< 8 ||| q.b3.setWidth 32

/-- A word written big-endian, most significant byte first (49_primitives.md R113). -/
def Quad.ofWordBE (w : Word) : Quad :=
  ⟨w.extractLsb' 24 8, w.extractLsb' 16 8, w.extractLsb' 8 8, w.extractLsb' 0 8⟩

/-- The bytes of a group in order. -/
def Quad.toList (q : Quad) : List Byte := [q.b0, q.b1, q.b2, q.b3]

/-- Bytewise exclusive-or (00_scope.md R10). -/
def Quad.xor (x y : Quad) : Quad := ⟨x.b0 ^^^ y.b0, x.b1 ^^^ y.b1, x.b2 ^^^ y.b2, x.b3 ^^^ y.b3⟩

/-- The same function on each of the four bytes. -/
def Quad.map (f : Byte → Byte) (q : Quad) : Quad := ⟨f q.b0, f q.b1, f q.b2, f q.b3⟩

/-- The 16 bytes in order. -/
def Block.toList (x : Block) : List Byte := x.q0.toList ++ x.q1.toList ++ x.q2.toList ++ x.q3.toList

/-- Bytewise exclusive-or (00_scope.md R10). -/
def Block.xor (x y : Block) : Block := ⟨x.q0.xor y.q0, x.q1.xor y.q1, x.q2.xor y.q2, x.q3.xor y.q3⟩

/-- The 32 bytes in order. -/
def Bytes32.toList (x : Bytes32) : List Byte :=
  x.q0.toList ++ x.q1.toList ++ x.q2.toList ++ x.q3.toList
    ++ (x.q4.toList ++ x.q5.toList ++ x.q6.toList ++ x.q7.toList)

/-- Bytes 0 to 15 (the left half, 41_kdf.md R82). -/
def Bytes32.left (x : Bytes32) : Block := ⟨x.q0, x.q1, x.q2, x.q3⟩

/-- Bytes 16 to 31 (the right half, 41_kdf.md R82). -/
def Bytes32.right (x : Bytes32) : Block := ⟨x.q4, x.q5, x.q6, x.q7⟩

/-- The byte string of a range of four words, packed little-endian (20_memory.md R50, 10_state.md R30). -/
def Block.ofWords (x : Words4) : Block :=
  ⟨Quad.ofWordLE x.w0, Quad.ofWordLE x.w1, Quad.ofWordLE x.w2, Quad.ofWordLE x.w3⟩

/-- The four words that pack a 16-byte string (10_state.md R30, R31). -/
def Block.toWords (x : Block) : Words4 := ⟨x.q0.toWordLE, x.q1.toWordLE, x.q2.toWordLE, x.q3.toWordLE⟩

/-- The byte string of a range of eight words, packed little-endian (10_state.md R33). -/
def Bytes32.ofWords (x : Words8) : Bytes32 :=
  ⟨Quad.ofWordLE x.w0, Quad.ofWordLE x.w1, Quad.ofWordLE x.w2, Quad.ofWordLE x.w3,
   Quad.ofWordLE x.w4, Quad.ofWordLE x.w5, Quad.ofWordLE x.w6, Quad.ofWordLE x.w7⟩

/-- The eight words that pack a 32-byte string (10_state.md R33). -/
def Bytes32.toWords (x : Bytes32) : Words8 :=
  ⟨x.q0.toWordLE, x.q1.toWordLE, x.q2.toWordLE, x.q3.toWordLE,
   x.q4.toWordLE, x.q5.toWordLE, x.q6.toWordLE, x.q7.toWordLE⟩

/-- Word `i` of a range of four. -/
def Words4.get (x : Words4) (i : Fin 4) : Word :=
  match i with
  | 0 => x.w0
  | 1 => x.w1
  | 2 => x.w2
  | 3 => x.w3

/-- A range of four with word `i` replaced. -/
def Words4.set (x : Words4) (i : Fin 4) (v : Word) : Words4 :=
  match i with
  | 0 => { x with w0 := v }
  | 1 => { x with w1 := v }
  | 2 => { x with w2 := v }
  | 3 => { x with w3 := v }

/-- Word `i` of a range of eight. -/
def Words8.get (x : Words8) (i : Fin 8) : Word :=
  match i with
  | 0 => x.w0
  | 1 => x.w1
  | 2 => x.w2
  | 3 => x.w3
  | 4 => x.w4
  | 5 => x.w5
  | 6 => x.w6
  | 7 => x.w7

/-- Wordwise addition modulo 2^32 (49_primitives.md R112). -/
def Words8.add (x y : Words8) : Words8 :=
  ⟨x.w0 + y.w0, x.w1 + y.w1, x.w2 + y.w2, x.w3 + y.w3, x.w4 + y.w4, x.w5 + y.w5, x.w6 + y.w6, x.w7 + y.w7⟩

/-- Eight words as a byte string, each word big-endian (49_primitives.md R113). -/
def Bytes32.ofWordsBE (x : Words8) : Bytes32 :=
  ⟨Quad.ofWordBE x.w0, Quad.ofWordBE x.w1, Quad.ofWordBE x.w2, Quad.ofWordBE x.w3,
   Quad.ofWordBE x.w4, Quad.ofWordBE x.w5, Quad.ofWordBE x.w6, Quad.ofWordBE x.w7⟩

end Sys2Proof
end

