-- ==== Sys2Proof/Machine/Aes256.lean ====
section
/-! DEFINITION. AES-256 (49_primitives.md R114 to R121). The state's column `c` is group `c` of a `Block`, its row `r` byte `r` of
the group (R115). -/

namespace Sys2Proof.Machine

/-- Multiplication by 0x02 in GF(2^8) (49_primitives.md R114). -/
def xtime (a : Byte) : Byte := (a <<< 1) ^^^ (if a.getLsbD 7 then 0x1B#8 else 0x00#8)

/-- `xtime` applied `n` times. -/
def xtimes : Nat → Byte → Byte
  | 0, a => a
  | n + 1, a => xtime (xtimes n a)

/-- The product `a * b` in GF(2^8): the xor of `xtime^i(a)` over the set bits `i` of `b`, for the bits below `n`
(49_primitives.md R114). -/
def gfMulBits : Nat → Byte → Byte → Byte
  | 0, _, _ => 0x00#8
  | n + 1, a, b => gfMulBits n a b ^^^ (if b.getLsbD n then xtimes n a else 0x00#8)

/-- The product `a * b` in GF(2^8) (49_primitives.md R114). -/
def gfMul (a b : Byte) : Byte := gfMulBits 8 a b

/-- The S-box table (49_primitives.md R116), rows 0 to 7. -/
def sboxRowsLow : List (List Byte) :=
  [[0x63#8, 0x7c#8, 0x77#8, 0x7b#8, 0xf2#8, 0x6b#8, 0x6f#8, 0xc5#8, 0x30#8, 0x01#8, 0x67#8, 0x2b#8, 0xfe#8, 0xd7#8, 0xab#8, 0x76#8]] ++
  [[0xca#8, 0x82#8, 0xc9#8, 0x7d#8, 0xfa#8, 0x59#8, 0x47#8, 0xf0#8, 0xad#8, 0xd4#8, 0xa2#8, 0xaf#8, 0x9c#8, 0xa4#8, 0x72#8, 0xc0#8]] ++
  [[0xb7#8, 0xfd#8, 0x93#8, 0x26#8, 0x36#8, 0x3f#8, 0xf7#8, 0xcc#8, 0x34#8, 0xa5#8, 0xe5#8, 0xf1#8, 0x71#8, 0xd8#8, 0x31#8, 0x15#8]] ++
  [[0x04#8, 0xc7#8, 0x23#8, 0xc3#8, 0x18#8, 0x96#8, 0x05#8, 0x9a#8, 0x07#8, 0x12#8, 0x80#8, 0xe2#8, 0xeb#8, 0x27#8, 0xb2#8, 0x75#8]] ++
  [[0x09#8, 0x83#8, 0x2c#8, 0x1a#8, 0x1b#8, 0x6e#8, 0x5a#8, 0xa0#8, 0x52#8, 0x3b#8, 0xd6#8, 0xb3#8, 0x29#8, 0xe3#8, 0x2f#8, 0x84#8]] ++
  [[0x53#8, 0xd1#8, 0x00#8, 0xed#8, 0x20#8, 0xfc#8, 0xb1#8, 0x5b#8, 0x6a#8, 0xcb#8, 0xbe#8, 0x39#8, 0x4a#8, 0x4c#8, 0x58#8, 0xcf#8]] ++
  [[0xd0#8, 0xef#8, 0xaa#8, 0xfb#8, 0x43#8, 0x4d#8, 0x33#8, 0x85#8, 0x45#8, 0xf9#8, 0x02#8, 0x7f#8, 0x50#8, 0x3c#8, 0x9f#8, 0xa8#8]] ++
  [[0x51#8, 0xa3#8, 0x40#8, 0x8f#8, 0x92#8, 0x9d#8, 0x38#8, 0xf5#8, 0xbc#8, 0xb6#8, 0xda#8, 0x21#8, 0x10#8, 0xff#8, 0xf3#8, 0xd2#8]]

/-- The S-box table (49_primitives.md R116), rows 8 to f. -/
def sboxRowsHigh : List (List Byte) :=
  [[0xcd#8, 0x0c#8, 0x13#8, 0xec#8, 0x5f#8, 0x97#8, 0x44#8, 0x17#8, 0xc4#8, 0xa7#8, 0x7e#8, 0x3d#8, 0x64#8, 0x5d#8, 0x19#8, 0x73#8]] ++
  [[0x60#8, 0x81#8, 0x4f#8, 0xdc#8, 0x22#8, 0x2a#8, 0x90#8, 0x88#8, 0x46#8, 0xee#8, 0xb8#8, 0x14#8, 0xde#8, 0x5e#8, 0x0b#8, 0xdb#8]] ++
  [[0xe0#8, 0x32#8, 0x3a#8, 0x0a#8, 0x49#8, 0x06#8, 0x24#8, 0x5c#8, 0xc2#8, 0xd3#8, 0xac#8, 0x62#8, 0x91#8, 0x95#8, 0xe4#8, 0x79#8]] ++
  [[0xe7#8, 0xc8#8, 0x37#8, 0x6d#8, 0x8d#8, 0xd5#8, 0x4e#8, 0xa9#8, 0x6c#8, 0x56#8, 0xf4#8, 0xea#8, 0x65#8, 0x7a#8, 0xae#8, 0x08#8]] ++
  [[0xba#8, 0x78#8, 0x25#8, 0x2e#8, 0x1c#8, 0xa6#8, 0xb4#8, 0xc6#8, 0xe8#8, 0xdd#8, 0x74#8, 0x1f#8, 0x4b#8, 0xbd#8, 0x8b#8, 0x8a#8]] ++
  [[0x70#8, 0x3e#8, 0xb5#8, 0x66#8, 0x48#8, 0x03#8, 0xf6#8, 0x0e#8, 0x61#8, 0x35#8, 0x57#8, 0xb9#8, 0x86#8, 0xc1#8, 0x1d#8, 0x9e#8]] ++
  [[0xe1#8, 0xf8#8, 0x98#8, 0x11#8, 0x69#8, 0xd9#8, 0x8e#8, 0x94#8, 0x9b#8, 0x1e#8, 0x87#8, 0xe9#8, 0xce#8, 0x55#8, 0x28#8, 0xdf#8]] ++
  [[0x8c#8, 0xa1#8, 0x89#8, 0x0d#8, 0xbf#8, 0xe6#8, 0x42#8, 0x68#8, 0x41#8, 0x99#8, 0x2d#8, 0x0f#8, 0xb0#8, 0x54#8, 0xbb#8, 0x16#8]]

/-- The inverse S-box table (49_primitives.md R117), rows 0 to 7. -/
def invSboxRowsLow : List (List Byte) :=
  [[0x52#8, 0x09#8, 0x6a#8, 0xd5#8, 0x30#8, 0x36#8, 0xa5#8, 0x38#8, 0xbf#8, 0x40#8, 0xa3#8, 0x9e#8, 0x81#8, 0xf3#8, 0xd7#8, 0xfb#8]] ++
  [[0x7c#8, 0xe3#8, 0x39#8, 0x82#8, 0x9b#8, 0x2f#8, 0xff#8, 0x87#8, 0x34#8, 0x8e#8, 0x43#8, 0x44#8, 0xc4#8, 0xde#8, 0xe9#8, 0xcb#8]] ++
  [[0x54#8, 0x7b#8, 0x94#8, 0x32#8, 0xa6#8, 0xc2#8, 0x23#8, 0x3d#8, 0xee#8, 0x4c#8, 0x95#8, 0x0b#8, 0x42#8, 0xfa#8, 0xc3#8, 0x4e#8]] ++
  [[0x08#8, 0x2e#8, 0xa1#8, 0x66#8, 0x28#8, 0xd9#8, 0x24#8, 0xb2#8, 0x76#8, 0x5b#8, 0xa2#8, 0x49#8, 0x6d#8, 0x8b#8, 0xd1#8, 0x25#8]] ++
  [[0x72#8, 0xf8#8, 0xf6#8, 0x64#8, 0x86#8, 0x68#8, 0x98#8, 0x16#8, 0xd4#8, 0xa4#8, 0x5c#8, 0xcc#8, 0x5d#8, 0x65#8, 0xb6#8, 0x92#8]] ++
  [[0x6c#8, 0x70#8, 0x48#8, 0x50#8, 0xfd#8, 0xed#8, 0xb9#8, 0xda#8, 0x5e#8, 0x15#8, 0x46#8, 0x57#8, 0xa7#8, 0x8d#8, 0x9d#8, 0x84#8]] ++
  [[0x90#8, 0xd8#8, 0xab#8, 0x00#8, 0x8c#8, 0xbc#8, 0xd3#8, 0x0a#8, 0xf7#8, 0xe4#8, 0x58#8, 0x05#8, 0xb8#8, 0xb3#8, 0x45#8, 0x06#8]] ++
  [[0xd0#8, 0x2c#8, 0x1e#8, 0x8f#8, 0xca#8, 0x3f#8, 0x0f#8, 0x02#8, 0xc1#8, 0xaf#8, 0xbd#8, 0x03#8, 0x01#8, 0x13#8, 0x8a#8, 0x6b#8]]

/-- The inverse S-box table (49_primitives.md R117), rows 8 to f. -/
def invSboxRowsHigh : List (List Byte) :=
  [[0x3a#8, 0x91#8, 0x11#8, 0x41#8, 0x4f#8, 0x67#8, 0xdc#8, 0xea#8, 0x97#8, 0xf2#8, 0xcf#8, 0xce#8, 0xf0#8, 0xb4#8, 0xe6#8, 0x73#8]] ++
  [[0x96#8, 0xac#8, 0x74#8, 0x22#8, 0xe7#8, 0xad#8, 0x35#8, 0x85#8, 0xe2#8, 0xf9#8, 0x37#8, 0xe8#8, 0x1c#8, 0x75#8, 0xdf#8, 0x6e#8]] ++
  [[0x47#8, 0xf1#8, 0x1a#8, 0x71#8, 0x1d#8, 0x29#8, 0xc5#8, 0x89#8, 0x6f#8, 0xb7#8, 0x62#8, 0x0e#8, 0xaa#8, 0x18#8, 0xbe#8, 0x1b#8]] ++
  [[0xfc#8, 0x56#8, 0x3e#8, 0x4b#8, 0xc6#8, 0xd2#8, 0x79#8, 0x20#8, 0x9a#8, 0xdb#8, 0xc0#8, 0xfe#8, 0x78#8, 0xcd#8, 0x5a#8, 0xf4#8]] ++
  [[0x1f#8, 0xdd#8, 0xa8#8, 0x33#8, 0x88#8, 0x07#8, 0xc7#8, 0x31#8, 0xb1#8, 0x12#8, 0x10#8, 0x59#8, 0x27#8, 0x80#8, 0xec#8, 0x5f#8]] ++
  [[0x60#8, 0x51#8, 0x7f#8, 0xa9#8, 0x19#8, 0xb5#8, 0x4a#8, 0x0d#8, 0x2d#8, 0xe5#8, 0x7a#8, 0x9f#8, 0x93#8, 0xc9#8, 0x9c#8, 0xef#8]] ++
  [[0xa0#8, 0xe0#8, 0x3b#8, 0x4d#8, 0xae#8, 0x2a#8, 0xf5#8, 0xb0#8, 0xc8#8, 0xeb#8, 0xbb#8, 0x3c#8, 0x83#8, 0x53#8, 0x99#8, 0x61#8]] ++
  [[0x17#8, 0x2b#8, 0x04#8, 0x7e#8, 0xba#8, 0x77#8, 0xd6#8, 0x26#8, 0xe1#8, 0x69#8, 0x14#8, 0x63#8, 0x55#8, 0x21#8, 0x0c#8, 0x7d#8]]


/-- Entry `16*hi + lo` of a table of 16 rows of 16. -/
def tableLookup (rows : List (List Byte)) (a : Byte) : Byte :=
  (rows.getD (a.toNat / 16) []).getD (a.toNat % 16) 0x00#8

/-- Sbox (49_primitives.md R116). -/
def sbox (a : Byte) : Byte := tableLookup (sboxRowsLow ++ sboxRowsHigh) a

/-- InvSbox (49_primitives.md R117). -/
def invSbox (a : Byte) : Byte := tableLookup (invSboxRowsLow ++ invSboxRowsHigh) a

/-- RotWord (49_primitives.md R118). -/
def rotWord (t : Quad) : Quad := ⟨t.b1, t.b2, t.b3, t.b0⟩

/-- SubWord (49_primitives.md R118). -/
def subWord (t : Quad) : Quad := t.map sbox

/-- Rcon[1..7] = 0x01, 0x02, .., 0x40 (49_primitives.md R118). -/
def rcon (n : Nat) : Byte := 0x01#8 <<< (n - 1)

/-- The value that the key schedule xors to `w[i-8]`, from `t = w[i-1]` (49_primitives.md R118). -/
def keyTemp (i : Nat) (t : Quad) : Quad :=
  if i % 8 = 0 then (subWord (rotWord t)).xor ⟨rcon (i / 8), 0x00#8, 0x00#8, 0x00#8⟩
  else if i % 8 = 4 then subWord t
  else t

/-- Extend the key schedule, latest word first, by `n` words, the first of them word `i` (49_primitives.md R118). -/
def keyExtend : Nat → Nat → List Quad → List Quad
  | 0, _, ws => ws
  | n + 1, i, ws => keyExtend n (i + 1) ((ws.getD 7 Quad.zero).xor (keyTemp i (ws.getD 0 Quad.zero)) :: ws)

/-- The key schedule w[0..59] of a 32-byte key (49_primitives.md R118). -/
def keyExpand (k : Bytes32) : List Quad :=
  (keyExtend 52 8 [k.q7, k.q6, k.q5, k.q4, k.q3, k.q2, k.q1, k.q0]).reverse

/-- Round key `rk` of a key schedule (49_primitives.md R118). -/
def roundKey (ws : List Quad) (rk : Nat) : Block :=
  ⟨ws.getD (4 * rk) Quad.zero, ws.getD (4 * rk + 1) Quad.zero, ws.getD (4 * rk + 2) Quad.zero,
   ws.getD (4 * rk + 3) Quad.zero⟩

/-- AddRoundKey (49_primitives.md R119). -/
def addRoundKey (ws : List Quad) (rk : Nat) (s : Block) : Block := s.xor (roundKey ws rk)

/-- SubBytes (49_primitives.md R119). -/
def subBytes (s : Block) : Block := ⟨s.q0.map sbox, s.q1.map sbox, s.q2.map sbox, s.q3.map sbox⟩

/-- InvSubBytes (49_primitives.md R119). -/
def invSubBytes (s : Block) : Block := ⟨s.q0.map invSbox, s.q1.map invSbox, s.q2.map invSbox, s.q3.map invSbox⟩

/-- ShiftRows: row `r` rotated left by `r` (49_primitives.md R119). -/
def shiftRows (s : Block) : Block :=
  ⟨⟨s.q0.b0, s.q1.b1, s.q2.b2, s.q3.b3⟩, ⟨s.q1.b0, s.q2.b1, s.q3.b2, s.q0.b3⟩,
   ⟨s.q2.b0, s.q3.b1, s.q0.b2, s.q1.b3⟩, ⟨s.q3.b0, s.q0.b1, s.q1.b2, s.q2.b3⟩⟩

/-- InvShiftRows: row `r` rotated right by `r` (49_primitives.md R119). -/
def invShiftRows (s : Block) : Block :=
  ⟨⟨s.q0.b0, s.q3.b1, s.q2.b2, s.q1.b3⟩, ⟨s.q1.b0, s.q0.b1, s.q3.b2, s.q2.b3⟩,
   ⟨s.q2.b0, s.q1.b1, s.q0.b2, s.q3.b3⟩, ⟨s.q3.b0, s.q2.b1, s.q1.b2, s.q0.b3⟩⟩

/-- A column times the circulant matrix with first row `c0 c1 c2 c3`: row `r` is the xor of `c_j * a_(r+j)`, indices mod 4
(49_primitives.md R119). -/
def mixColumn (c0 c1 c2 c3 : Byte) (q : Quad) : Quad :=
  ⟨gfMul q.b0 c0 ^^^ gfMul q.b1 c1 ^^^ gfMul q.b2 c2 ^^^ gfMul q.b3 c3,
   gfMul q.b1 c0 ^^^ gfMul q.b2 c1 ^^^ gfMul q.b3 c2 ^^^ gfMul q.b0 c3,
   gfMul q.b2 c0 ^^^ gfMul q.b3 c1 ^^^ gfMul q.b0 c2 ^^^ gfMul q.b1 c3,
   gfMul q.b3 c0 ^^^ gfMul q.b0 c1 ^^^ gfMul q.b1 c2 ^^^ gfMul q.b2 c3⟩

/-- One column of MixColumns: coefficients 2, 3, 1, 1 (49_primitives.md R119). -/
def mixColumnFwd (q : Quad) : Quad := mixColumn 0x02#8 0x03#8 0x01#8 0x01#8 q

/-- One column of InvMixColumns: coefficients 0x0e, 0x0b, 0x0d, 0x09 (49_primitives.md R119). -/
def mixColumnInv (q : Quad) : Quad := mixColumn 0x0e#8 0x0b#8 0x0d#8 0x09#8 q

/-- MixColumns (49_primitives.md R119). -/
def mixColumns (s : Block) : Block := ⟨mixColumnFwd s.q0, mixColumnFwd s.q1, mixColumnFwd s.q2, mixColumnFwd s.q3⟩

/-- InvMixColumns (49_primitives.md R119). -/
def invMixColumns (s : Block) : Block := ⟨mixColumnInv s.q0, mixColumnInv s.q1, mixColumnInv s.q2, mixColumnInv s.q3⟩

/-- The state after AddRoundKey 0 and the full rounds 1 to `n` (49_primitives.md R120). -/
def encRounds (ws : List Quad) : Nat → Block → Block
  | 0, s => addRoundKey ws 0 s
  | n + 1, s => addRoundKey ws (n + 1) (mixColumns (shiftRows (subBytes (encRounds ws n s))))

/-- The inverse rounds `n` down to 1 and the last steps, with round key 0 (49_primitives.md R121). -/
def decRounds (ws : List Quad) : Nat → Block → Block
  | 0, s => addRoundKey ws 0 (invSubBytes (invShiftRows s))
  | n + 1, s => decRounds ws n (invMixColumns (addRoundKey ws (n + 1) (invSubBytes (invShiftRows s))))

/-- AES256_Enc(Kc, X) (49_primitives.md R120). -/
def aes256Enc (k : Bytes32) (x : Block) : Block :=
  addRoundKey (keyExpand k) 14 (shiftRows (subBytes (encRounds (keyExpand k) 13 x)))

/-- AES256_Dec(Kc, Y) (49_primitives.md R121). -/
def aes256Dec (k : Bytes32) (y : Block) : Block :=
  decRounds (keyExpand k) 13 (addRoundKey (keyExpand k) 14 y)

end Sys2Proof.Machine
end

