-- ==== Sys2Proof/Config.lean ====
section
/-! DEFINITION. What an implementation fixes: the parameters of 00_scope.md R8 as one record, with the defaults the rule gives, and
the fixed values of the same rule. The record stands in State, so that a statement about every state is a statement about
every parameter value (00_scope.md R8: the model takes the parameters as arguments; log 1). -/

namespace Sys2Proof

/-- The outcome when FLAGS has both the AES and the Twofish bit (parameter BOTH_CIPHERS, 00_scope.md R8; 30_encoding.md R70). -/
inductive BothCiphers where
  | reject
  | preferAES
deriving DecidableEq, Repr

/-- The implementation parameters (00_scope.md R8). -/
structure Params where
  /-- BASE: bus address of offset 0x000 of the window; OPEN in the spec (log 1). -/
  base : Nat
  /-- SIG1: the first fixed magic word. -/
  sig1 : Word
  /-- SIG2: the second fixed magic word. -/
  sig2 : Word
  /-- MAX_ROUNDS: the largest round count DERIVE_KEY accepts. -/
  maxRounds : Word
  /-- PASS_MAX: the size in bytes of the passphrase window. -/
  passMax : Word
  /-- BOTH_CIPHERS: what flags with both cipher bits select. -/
  bothCiphers : BothCiphers
deriving DecidableEq, Repr

/-- The default values of 00_scope.md R8. BASE has none there: 0 is a DESIGN CHOICE (log 1). -/
def Params.default : Params where
  base := 0
  sig1 := 0x9AA2D903#32
  sig2 := 0xB54BFB65#32
  maxRounds := 0x01000000#32
  passMax := 256#32
  bothCiphers := .reject

/-- The constant of the ID register (10_state.md R15). -/
def idValue : Word := 0x4B444233#32

/-- The size of the header in bytes (00_scope.md R8, 30_encoding.md R68). -/
def headerBytes : Word := 124#32

/-- The size of the window in bytes (10_state.md R14, 20_memory.md R44). -/
def windowBytes : Nat := 4096

end Sys2Proof
end

