-- ==== Sys2Proof/Machine/State.lean ====
section
/-! DEFINITION. The state of the block as plain data: every register, field and working register of 10_state.md, the pins, the
parameters, and the model's own record of the inputs to come and of the port's last answer. Also the reasons a step can stop,
and the state after reset. -/

namespace Sys2Proof.Machine

/-- The session phase (STATUS.PHASE, 10_state.md R18). The values 4, 5 and 6 never occur. -/
inductive Phase where
  | empty
  | header
  | keyed
  | body
  | error
deriving DecidableEq, Repr

/-- The body cipher the parsed header selects (STATUS.CIPHER, 10_state.md R18). The value 3 never occurs. -/
inductive Cipher where
  | none
  | aes
  | twofish
deriving DecidableEq, Repr

/-- The error codes 0 to 11 (60_exceptions.md R123). No rule raises `decryptionFailed` (R124); codes 12 to 255 do not occur. -/
inductive ErrCode where
  | none
  | malformedHeader
  | badSignature
  | unsupportedVersion
  | unknownCipher
  | unsupportedCipher
  | keyDerivationTooExpensive
  | truncatedCiphertext
  | decryptionFailed
  | passphraseTooLong
  | sequenceError
  | illegalCommand
deriving DecidableEq, Repr

/-- OP, the engine's current operation (10_state.md R36). -/
inductive Op where
  | none
  | parse
  | derive
  | init
  | decrypt
deriving DecidableEq, Repr

/-- KSTEP, the key-derivation sub-step (10_state.md R38). -/
inductive KStep where
  | start
  | stretch
deriving DecidableEq, Repr

/-- The two agents that take steps (00_scope.md R6). -/
inductive Agent where
  | host
  | engine
deriving DecidableEq, Repr

/-- One access of the host on the slave port (00_scope.md R7): bus address, width in bytes, and for a write the 32-bit value
(of an access of another width no bit is used, 20_memory.md R48). -/
inductive Access where
  | read (addr bytes : Nat)
  | write (addr bytes : Nat) (v : Word)
deriving DecidableEq, Repr

/-- One input of the block. -/
inductive Event where
  /-- The host performs one access (20_memory.md R52: one atomic step). -/
  | host (a : Access)
  /-- The engine gets to take its enabled step, if there is one (43_control.md R102). -/
  | engine
  /-- The reset input takes this level (70_reset_and_hazards.md R139). -/
  | rst (level : Bool)
  /-- The clock starts or stops (60_exceptions.md R137). -/
  | clock (running : Bool)
  /-- Power is removed (60_exceptions.md R137). -/
  | powerOff
deriving DecidableEq, Repr

/-- What the slave port answers (00_scope.md R7): OK or ERROR, and the read data (0 for a write). -/
structure Response where
  ok : Bool
  data : Word
deriving DecidableEq, Repr

/-- The bytes of the HDR and PASS windows by window offset, in one canonical form: offsets strictly rising, no zero byte listed.
An unlisted offset reads 0, the reset value of both windows (10_state.md R34, R35; log 7). -/
abbrev Memory := List Host.Cell

/-- The machine's state. -/
structure State where
  /-- The parameters (00_scope.md R8); no step changes them. -/
  params : Params
  /-- CTRL.IRQ_EN (10_state.md R16). -/
  irqEn : Bool
  /-- STATUS.DONE (10_state.md R18). -/
  done : Bool
  /-- STATUS.DROP (10_state.md R18). -/
  drop : Bool
  /-- STATUS.PHASE (10_state.md R18). -/
  phase : Phase
  /-- STATUS.CIPHER (10_state.md R18). -/
  cipher : Cipher
  /-- ERR_CODE (10_state.md R19). -/
  errCode : ErrCode
  /-- ERR_INFO0 (10_state.md R20). -/
  errInfo0 : Word
  /-- ERR_INFO1 (10_state.md R21). -/
  errInfo1 : Word
  /-- FILE_LEN (10_state.md R22). -/
  fileLen : Word
  /-- PASS_LEN (10_state.md R23). -/
  passLen : Word
  /-- KDF_COUNT (10_state.md R24). -/
  kdfCount : Word
  /-- BLOCKS_LEFT (10_state.md R25). -/
  blocksLeft : Word
  /-- DIN[0..3] (10_state.md R30). -/
  din : Words4
  /-- DOUT[0..3] (10_state.md R31). -/
  dout : Words4
  /-- CHAIN[0..3] (10_state.md R32). -/
  chain : Words4
  /-- KEY[0..7] (10_state.md R33). -/
  key : Words8
  /-- HDR[0..30] and PASS[0..PASS_MAX/4-1] as bytes (10_state.md R34, R35). -/
  mem : Memory
  /-- OP (10_state.md R36). -/
  op : Op
  /-- KSTEP (10_state.md R38). -/
  kstep : KStep
  /-- LBLK (10_state.md R39). -/
  lblk : Block
  /-- RBLK (10_state.md R39). -/
  rblk : Block
  /-- The level of the input `rst` (00_scope.md R7, 70_reset_and_hazards.md R139). -/
  rst : Bool
  /-- The clock runs (60_exceptions.md R137; log 10). -/
  clk : Bool
  /-- Power has been removed since the last input that asserted `rst` (60_exceptions.md R137; log 11, log 19). -/
  powerLost : Bool
  /-- The MODEL's own: the inputs still to come, first one first (log 2). -/
  sched : List Event
  /-- The MODEL's own: the agent that takes the step in progress (log 3). -/
  agent : Agent
  /-- The MODEL's own: what the port answered to the host's last access; none where the block was not addressed (log 4). -/
  resp : Option Response
deriving DecidableEq, Repr

/-- Why the machine stops. -/
inductive Fault where
  /-- Raised by a host access or an engine turn after power was removed and before a reset: the state is lost and the block must
  be reset (60_exceptions.md R137), and the spec gives such an access no effect. Safe: the model stops (log 11). -/
  | stateLost
deriving DecidableEq, Repr

/-- Why an instruction has no meaning. No meaning of this model answers with one. -/
inductive Refusal where
  /-- Raised by an arm of `exec` that has no meaning yet; no arm has it now. Safe: the model stops. -/
  | notModelled (mnemonic : String)
deriving DecidableEq, Repr

/-- The machine right after reset (10_state.md R43, 70_reset_and_hazards.md R139): `rst` deasserted, every register at its reset
value, the parameters at the defaults of 00_scope.md R8. The last six lines but `rst` are the model's own or its choice
(log 10, 11, 17). -/
def State.reset : State where
  params := Params.default
  irqEn := false
  done := false
  drop := false
  phase := .empty
  cipher := .none
  errCode := .none
  errInfo0 := 0#32
  errInfo1 := 0#32
  fileLen := 0#32
  passLen := 0#32
  kdfCount := 0#32
  blocksLeft := 0#32
  din := Words4.zero
  dout := Words4.zero
  chain := Words4.zero
  key := Words8.zero
  mem := []
  op := .none
  kstep := .start
  lblk := Block.zero
  rblk := Block.zero
  rst := false
  clk := true
  powerLost := false
  sched := []
  agent := .host
  resp := none

end Sys2Proof.Machine
end

