-- ==== Sys2Proof/Machine/Memory.lean ====
section
/-! DEFINITION. The memory of the HDR and PASS windows: bytes by window offset (20_memory.md R44, R50), their canonical form, and
the aligned word accesses built from them (20_memory.md R45). -/

namespace Sys2Proof.Machine

/-- What a byte no cell lists reads as: 0, the reset value of HDR and PASS (10_state.md R34, R35, R43; log 7). -/
def Memory.unlisted : Byte := 0#8

/-- The byte at an offset. -/
def Memory.readByte : Memory → Nat → Byte
  | [], _ => Memory.unlisted
  | (x, c) :: m, a => if a = x then c else Memory.readByte m a

/-- Write one byte, keeping the canonical form: a byte equal to what an unlisted offset reads as is not listed. -/
def Memory.writeByte : Memory → Nat → Byte → Memory
  | [], a, b => if b = Memory.unlisted then [] else [(a, b)]
  | (x, c) :: m, a, b =>
    if a < x then (if b = Memory.unlisted then (x, c) :: m else (a, b) :: (x, c) :: m)
    else if a = x then (if b = Memory.unlisted then m else (a, b) :: m)
    else (x, c) :: Memory.writeByte m a b

/-- The cells are at rising offsets from `lo` up, and none holds what an unlisted offset reads as. -/
def Memory.wfFrom : Nat → Memory → Bool
  | _, [] => true
  | lo, (a, b) :: m => decide (lo ≤ a) && decide (b ≠ Memory.unlisted) && Memory.wfFrom (a + 1) m

/-- The canonical form. -/
def Memory.wf (m : Memory) : Bool := Memory.wfFrom 0 m

/-- The four bytes from an offset up, in offset order. -/
def Memory.readQuad (m : Memory) (a : Nat) : Quad :=
  ⟨Memory.readByte m a, Memory.readByte m (a + 1), Memory.readByte m (a + 2), Memory.readByte m (a + 3)⟩

/-- The 32-bit word at an offset, little-endian (20_memory.md R50). -/
def Memory.readWord (m : Memory) (a : Nat) : Word := (Memory.readQuad m a).toWordLE

/-- Write four bytes from an offset up. -/
def Memory.writeQuad (m : Memory) (a : Nat) (q : Quad) : Memory :=
  Memory.writeByte (Memory.writeByte (Memory.writeByte (Memory.writeByte m a q.b0) (a + 1) q.b1) (a + 2) q.b2)
    (a + 3) q.b3

/-- Write a 32-bit word at an offset, little-endian (20_memory.md R50). -/
def Memory.writeWord (m : Memory) (a : Nat) (v : Word) : Memory := Memory.writeQuad m a (Quad.ofWordLE v)

end Sys2Proof.Machine
end

