-- ==== Sys2Proof/Machine/Operands.lean ====
section
/-! DEFINITION. Operand assembly (30_encoding.md R67): the header fields in the HDR window (10_state.md R34, R41; 30_encoding.md R68
to R73) and the passphrase bytes in the PASS window (10_state.md R35). -/

namespace Sys2Proof.Machine

/-- The window offset of HDR[0] (10_state.md R14). -/
def hdrBase : Nat := 0x100

/-- The window offset of PASS[0] (10_state.md R14). -/
def passBase : Nat := 0x200

/-- HDR[k] (10_state.md R34). -/
def State.hdrWord (s : State) (k : Nat) : Word := Memory.readWord s.mem (hdrBase + 4 * k)

/-- Header bytes `4k` to `4k+3` (10_state.md R34). -/
def State.hdrQuad (s : State) (k : Nat) : Quad := Memory.readQuad s.mem (hdrBase + 4 * k)

/-- signature_1 (30_encoding.md R68). -/
def State.hdrSig1 (s : State) : Word := s.hdrWord 0

/-- signature_2 (30_encoding.md R68). -/
def State.hdrSig2 (s : State) : Word := s.hdrWord 1

/-- flags (30_encoding.md R68). -/
def State.hdrFlags (s : State) : Word := s.hdrWord 2

/-- version (30_encoding.md R68). -/
def State.hdrVersion (s : State) : Word := s.hdrWord 3

/-- seed_16, header bytes 16 to 31 (30_encoding.md R68). -/
def State.seed16 (s : State) : Block := ⟨s.hdrQuad 4, s.hdrQuad 5, s.hdrQuad 6, s.hdrQuad 7⟩

/-- iv, header bytes 32 to 47, as the words HDR[8..11] (30_encoding.md R68). -/
def State.ivWords (s : State) : Words4 := ⟨s.hdrWord 8, s.hdrWord 9, s.hdrWord 10, s.hdrWord 11⟩

/-- seed_32, header bytes 88 to 119 (30_encoding.md R68). -/
def State.seed32 (s : State) : Bytes32 :=
  ⟨s.hdrQuad 22, s.hdrQuad 23, s.hdrQuad 24, s.hdrQuad 25, s.hdrQuad 26, s.hdrQuad 27, s.hdrQuad 28, s.hdrQuad 29⟩

/-- round_count (30_encoding.md R73). -/
def State.hdrRounds (s : State) : Word := s.hdrWord 30

/-- The passphrase bytes `pass[0..n)` (10_state.md R35, 41_kdf.md R89). -/
def State.passBytes (s : State) (n : Nat) : List Byte :=
  (List.range n).map fun i => Memory.readByte s.mem (passBase + i)

/-- The major version, bits [31:16] of the version word (30_encoding.md R71). -/
def versionMajor (version : Word) : BitVec 16 := version.extractLsb' 16 16

/-- The cipher that flags select (30_encoding.md R70): bit 1 is AES, bit 3 is Twofish; `none` where the rule says UnknownCipher. -/
def selectCipher (both : BothCiphers) (flags : Word) : Cipher :=
  match flags.getLsbD 1, flags.getLsbD 3 with
  | false, false => .none
  | true, false => .aes
  | false, true => .twofish
  | true, true =>
    match both with
    | .reject => .none
    | .preferAES => .aes

end Sys2Proof.Machine
end

