-- ==== Sys2Proof/Syntax.lean ====
section
/-! DEFINITION. The instructions: the five command words of spec/opcode_table.json (30_encoding.md R63, R64). -/

namespace Sys2Proof

/-- A command the host writes to CMD. A command word has no operand, register, immediate or mode field (30_encoding.md R63):
every input of a command is a register. -/
inductive Instr where
  /-- CLEAR: end the session (43_control.md R103). -/
  | clear
  /-- PARSE_HEADER: validate the header in HDR against FILE_LEN (40_header.md R77). -/
  | parseHeader
  /-- DERIVE_KEY: derive the final key (41_kdf.md R83). -/
  | deriveKey
  /-- BODY_INIT: check the body length and cipher, load the IV (42_body_cbc.md R93). -/
  | bodyInit
  /-- DECRYPT_BLOCK: CBC-decrypt DIN into DOUT (42_body_cbc.md R94). -/
  | decryptBlock
deriving DecidableEq, Repr

end Sys2Proof
end

