-- ==== Sys2Proof/Decode.lean ====
section
/-! DEFINITION. The decoder of command words and the encoder (30_encoding.md R63 to R66). One format: bits [7:0] OPC, bits [31:8]
RSV, which must be 0. -/

namespace Sys2Proof

/-- Why a word is no command (30_encoding.md R65). -/
inductive DecodeError where
  /-- RSV is not 0 (whatever OPC holds). -/
  | reservedBits (w : Word)
  /-- RSV is 0 and OPC is none of the five. -/
  | undefinedOpcode (w : Word)
deriving DecidableEq, Repr

/-- Field OPC, bits [7:0] of a command word (30_encoding.md R63). -/
def opcField (w : Word) : Byte := w.extractLsb' 0 8

/-- Field RSV, bits [31:8] of a command word (30_encoding.md R63). -/
def rsvField (w : Word) : BitVec 24 := w.extractLsb' 8 24

/-- The command with a given opcode (30_encoding.md R64). -/
def instrOfOpc (b : Byte) : Option Instr :=
  if b = 0x01#8 then some .clear
  else if b = 0x02#8 then some .parseHeader
  else if b = 0x03#8 then some .deriveKey
  else if b = 0x04#8 then some .bodyInit
  else if b = 0x05#8 then some .decryptBlock
  else none

/-- The command a word stands for, total on all words (30_encoding.md R64, R65). -/
def decode (w : Word) : Except DecodeError Instr :=
  if rsvField w = 0#24 then
    match instrOfOpc (opcField w) with
    | some i => .ok i
    | none => .error (.undefinedOpcode w)
  else .error (.reservedBits w)

/-- The opcode of a command (30_encoding.md R64). -/
def opcOf : Instr → Byte
  | .clear => 0x01#8
  | .parseHeader => 0x02#8
  | .deriveKey => 0x03#8
  | .bodyInit => 0x04#8
  | .decryptBlock => 0x05#8

/-- The command word of a command: RSV 0 above OPC (30_encoding.md R63). -/
def encode (i : Instr) : Word := (0#24 ++ opcOf i : BitVec 32)

/-- The word that a table word of `nbits` bits stores: its bits from `nbits` up are 0, and a word of the block has 32. -/
def tableWord (nbits w : Nat) : Word := BitVec.ofNat 32 (w % 2 ^ nbits)

/-- What the decoder reads from a table word. Every command is exactly one 32-bit word (30_encoding.md R66), so a longer
bit string that does not fit in one is none. -/
def decodeTableWord (nbits w : Nat) : Option Instr :=
  if w % 2 ^ nbits < 2 ^ 32 then
    match decode (tableWord nbits w) with
    | .ok i => some i
    | .error _ => none
  else none

end Sys2Proof
end

