-- ==== Sys2Proof/Machine/Flags.lean ====
section
/-! DEFINITION. The status flags and fields as words (10_state.md R16, R18, R19, R36, R37, R42), and the interrupt output
(60_exceptions.md R130). -/

namespace Sys2Proof.Machine

/-- The code of a phase in STATUS bits [6:4] (10_state.md R18). -/
def Phase.bits : Phase → BitVec 3
  | .empty => 0#3
  | .header => 1#3
  | .keyed => 2#3
  | .body => 3#3
  | .error => 7#3

/-- The code of a cipher in STATUS bits [9:8] (10_state.md R18). -/
def Cipher.bits : Cipher → BitVec 2
  | .none => 0#2
  | .aes => 1#2
  | .twofish => 2#2

/-- The code of an error in ERR_CODE bits [7:0] (60_exceptions.md R123). -/
def ErrCode.bits : ErrCode → BitVec 8
  | .none => 0#8
  | .malformedHeader => 1#8
  | .badSignature => 2#8
  | .unsupportedVersion => 3#8
  | .unknownCipher => 4#8
  | .unsupportedCipher => 5#8
  | .keyDerivationTooExpensive => 6#8
  | .truncatedCiphertext => 7#8
  | .decryptionFailed => 8#8
  | .passphraseTooLong => 9#8
  | .sequenceError => 10#8
  | .illegalCommand => 11#8

/-- STATUS.BUSY: 1 exactly when OP is not NONE (10_state.md R36). -/
def State.busy (s : State) : Bool := decide (s.op ≠ .none)

/-- The header lock: PHASE is not EMPTY (10_state.md R37). -/
def State.headerLocked (s : State) : Bool := decide (s.phase ≠ .empty)

/-- CTRL as a host reads it: IRQ_EN in bit 0, the rest 0 (10_state.md R16). -/
def State.ctrlWord (s : State) : Word := 0#31 ++ BitVec.ofBool s.irqEn

/-- STATUS as a host reads it (10_state.md R18): from bit 31 down, 22 reserved bits, CIPHER, a reserved bit, PHASE, a reserved
bit, DROP, DONE, BUSY. -/
def State.statusWord (s : State) : Word :=
  0#22 ++ s.cipher.bits ++ 0#1 ++ s.phase.bits ++ 0#1 ++ BitVec.ofBool s.drop ++ BitVec.ofBool s.done
    ++ BitVec.ofBool s.busy

/-- ERR_CODE as a host reads it: the code in bits [7:0] (10_state.md R19). -/
def State.errCodeWord (s : State) : Word := 0#24 ++ s.errCode.bits

/-- PHASE widened to a word (43_control.md R100: ERR_INFO1 of SequenceError). -/
def State.phaseWord (s : State) : Word := 0#29 ++ s.phase.bits

/-- A write of `v` to STATUS: bits 1 and 2 are write-1-to-clear for DONE and DROP, no other bit has an effect
(10_state.md R18, 20_memory.md R47). -/
def State.writeStatus (s : State) (v : Word) : State :=
  { s with done := s.done && !v.getLsbD 1, drop := s.drop && !v.getLsbD 2 }

/-- A write of `v` to CTRL: bit 0 is IRQ_EN, the others are ignored (10_state.md R16, 20_memory.md R47). -/
def State.writeCtrl (s : State) (v : Word) : State := { s with irqEn := v.getLsbD 0 }

/-- The interrupt output: CTRL.IRQ_EN and STATUS.DONE (60_exceptions.md R130). DESIGN CHOICE, unsafe: between the removal of power
and the reset the spec gives the pin no level (R137), and the model keeps the level from before (log 18). -/
def State.irq (s : State) : Bool := s.irqEn && s.done

end Sys2Proof.Machine
end

