-- ==== Sys2Proof/Machine/Ops.lean ====
section
/-! DEFINITION. The shared operations of commands and accesses: error entry and the ways out of it, dropping, acceptance, and
completion (43_control.md R99 to R103, 60_exceptions.md R125 to R128, 70_reset_and_hazards.md R139). -/

namespace Sys2Proof.Machine

/-- A dropped host write: STATUS.DROP is set and nothing else changes (43_control.md R100, R101). -/
def State.dropWrite (s : State) : State := { s with drop := true }

/-- Error entry, `raise E(i0, i1)` (60_exceptions.md R125). -/
def State.raise (s : State) (e : ErrCode) (i0 i1 : Word) : State :=
  { s with
    errCode := e, errInfo0 := i0, errInfo1 := i1,
    phase := .error,
    key := Words8.zero, lblk := Block.zero, rblk := Block.zero,
    chain := Words4.zero, dout := Words4.zero, blocksLeft := 0#32,
    op := .none, kstep := .start,
    done := true }

/-- CLEAR's effect (43_control.md R103), one of the two ways out of the ERROR phase (60_exceptions.md R128): every register but ID,
CTRL and the constant ones returns to its reset value, and any command in progress is aborted. -/
def State.clearSession (s : State) : State :=
  { s with
    done := false, drop := false, phase := .empty, cipher := .none,
    errCode := .none, errInfo0 := 0#32, errInfo1 := 0#32,
    fileLen := 0#32, passLen := 0#32, kdfCount := 0#32, blocksLeft := 0#32,
    din := Words4.zero, dout := Words4.zero, chain := Words4.zero, key := Words8.zero,
    mem := [],
    op := .none, kstep := .start, lblk := Block.zero, rblk := Block.zero }

/-- What the assertion of `rst` does to the registers (70_reset_and_hazards.md R139), the other way out of ERROR: CLEAR's effect, and
CTRL to 0 as well (R140). -/
def State.resetBlock (s : State) : State := { s.clearSession with irqEn := false }

/-- The operation that the acceptance of a command sets (43_control.md R100); CLEAR sets none. -/
def Op.ofInstr : Instr → Op
  | .clear => .none
  | .parseHeader => .parse
  | .deriveKey => .derive
  | .bodyInit => .init
  | .decryptBlock => .decrypt

/-- The command the engine performs under an operation (10_state.md R36, 43_control.md R102). -/
def Op.instr : Op → Option Instr
  | .none => Option.none
  | .parse => some .parseHeader
  | .derive => some .deriveKey
  | .init => some .bodyInit
  | .decrypt => some .decryptBlock

/-- The phase precondition of a command (43_control.md R99); CLEAR has none (R103). -/
def State.legal (s : State) : Instr → Bool
  | .clear => true
  | .parseHeader => decide (s.phase = .empty)
  | .deriveKey => decide (s.phase = .header)
  | .bodyInit => decide (s.phase = .keyed)
  | .decryptBlock => decide (s.phase = .body) && decide (0#32 < s.blocksLeft)

/-- The acceptance of a command, the last line of 43_control.md R100. -/
def State.accept (s : State) (i : Instr) : State :=
  { s with done := false, op := Op.ofInstr i, kstep := if i = .deriveKey then .start else s.kstep }

/-- A command request is dropped: the block is busy or in the ERROR phase (43_control.md R100, second and third line). -/
def State.dropsRequest (s : State) : Bool := s.busy || decide (s.phase = .error)

/-- The request of a defined command other than CLEAR, handled within the host access (43_control.md R100). -/
def State.request (s : State) (i : Instr) : State :=
  if s.dropsRequest then s.dropWrite
  else if s.legal i then s.accept i
  else s.raise .sequenceError (encode i) s.phaseWord

/-- The request of an illegal word (43_control.md R100, R104). -/
def State.illegalRequest (s : State) (w : Word) : State :=
  if s.dropsRequest then s.dropWrite else s.raise .illegalCommand w 0#32

/-- The completion of a command: OP to NONE and DONE to 1 (43_control.md R102). -/
def State.complete (s : State) : State := { s with op := .none, done := true }

/-- The step in progress is an engine step of operation `o` (43_control.md R102; log 3). -/
def State.engineRuns (s : State) (o : Op) : Bool := decide (s.agent = .engine) && decide (s.op = o)

end Sys2Proof.Machine
end

