-- ==== Sys2Proof/Machine/Body.lean ====
section
/-! DEFINITION. BODY_INIT and DECRYPT_BLOCK (42_body_cbc.md R92 to R98), and the CBC decryption of R92, which the commands together
compute (R95). -/

namespace Sys2Proof.Machine

/-- CBC_Dec(K, IV, C) over the blocks of C (42_body_cbc.md R92). -/
def cbcDec (k : Bytes32) : Block → List Block → List Block
  | _, [] => []
  | x, c :: cs => (aes256Dec k c).xor x :: cbcDec k c cs

/-- The body length, FILE_LEN - 124 (42_body_cbc.md R93; FILE_LEN is at least 124 wherever BODY_INIT runs, log 9). -/
def State.bodyLen (s : State) : Word := s.fileLen - headerBytes

/-- The engine step of BODY_INIT (42_body_cbc.md R93), its checks in the order of R97. -/
def initStep (s : State) : State :=
  if s.cipher = .twofish then s.raise .unsupportedCipher s.hdrFlags 0#32
  else if s.bodyLen % 16#32 ≠ 0#32 then s.raise .truncatedCiphertext s.bodyLen (s.bodyLen % 16#32)
  else { s with chain := s.ivWords, blocksLeft := s.bodyLen / 16#32, phase := .body }.complete

/-- The engine step of DECRYPT_BLOCK (42_body_cbc.md R94). -/
def decryptStep (s : State) : State :=
  { s with
    dout := ((aes256Dec (Bytes32.ofWords s.key) (Block.ofWords s.din)).xor (Block.ofWords s.chain)).toWords,
    chain := s.din,
    blocksLeft := s.blocksLeft - 1#32 }.complete

/-- BODY_INIT (42_body_cbc.md R93): the engine step where the step in progress is the engine's and OP is INIT, and else the host's
request (43_control.md R100). -/
def execBodyInit (s : State) : Host.Outcome State Fault Refusal :=
  if s.engineRuns .init then .next (initStep s) else .next (s.request .bodyInit)

/-- DECRYPT_BLOCK (42_body_cbc.md R94): the engine step where the step in progress is the engine's and OP is DECRYPT, and else the
host's request (43_control.md R100). -/
def execDecryptBlock (s : State) : Host.Outcome State Fault Refusal :=
  if s.engineRuns .decrypt then .next (decryptStep s) else .next (s.request .decryptBlock)

end Sys2Proof.Machine
end

