-- ==== Sys2Proof/Machine/Control.lean ====
section
/-! DEFINITION. Command control: the meaning of CLEAR (43_control.md R103). -/

namespace Sys2Proof.Machine

/-- CLEAR (43_control.md R103): performed whole in the host access, in every phase and while busy; it never raises and is never
dropped. -/
def execClear (s : State) : Host.Outcome State Fault Refusal := .next s.clearSession

end Sys2Proof.Machine
end

