-- ==== Sys2Proof/Machine/Header.lean ====
section
/-! DEFINITION. PARSE_HEADER (40_header.md R76 to R81). -/

namespace Sys2Proof.Machine

/-- The engine step of PARSE_HEADER (40_header.md R77), its checks in the order of R78. -/
def parseStep (s : State) : State :=
  if s.fileLen < headerBytes then s.raise .malformedHeader s.fileLen 0#32
  else if s.hdrSig1 ≠ s.params.sig1 ∨ s.hdrSig2 ≠ s.params.sig2 then s.raise .badSignature s.hdrSig1 s.hdrSig2
  else if versionMajor s.hdrVersion < 3#16 then s.raise .unsupportedVersion s.hdrVersion 0#32
  else
    match selectCipher s.params.bothCiphers s.hdrFlags with
    | .none => s.raise .unknownCipher s.hdrFlags 0#32
    | c => { s with cipher := c, phase := .header }.complete

/-- PARSE_HEADER (40_header.md R77): the engine step where the step in progress is the engine's and OP is PARSE, and else the
host's request (43_control.md R100). -/
def execParseHeader (s : State) : Host.Outcome State Fault Refusal :=
  if s.engineRuns .parse then .next (parseStep s) else .next (s.request .parseHeader)

end Sys2Proof.Machine
end

