-- ==== Sys2Proof/Machine/Sha256.lean ====
section
/-! DEFINITION. SHA-256 (49_primitives.md R107 to R113). -/

namespace Sys2Proof.Machine

/-- Ch (49_primitives.md R107). -/
def shaCh (e f g : Word) : Word := (e &&& f) ^^^ (~~~e &&& g)

/-- Maj (49_primitives.md R107). -/
def shaMaj (a b c : Word) : Word := (a &&& b) ^^^ (a &&& c) ^^^ (b &&& c)

/-- ROTR (49_primitives.md R107), for rotations below 32. -/
def rotr (x : Word) (n : Nat) : Word := (x >>> n) ||| (x <<< (32 - n))

/-- Sigma0 (49_primitives.md R107). -/
def shaBigSigma0 (a : Word) : Word := rotr a 2 ^^^ rotr a 13 ^^^ rotr a 22

/-- Sigma1 (49_primitives.md R107). -/
def shaBigSigma1 (e : Word) : Word := rotr e 6 ^^^ rotr e 11 ^^^ rotr e 25

/-- sigma0 (49_primitives.md R107). -/
def shaSigma0 (x : Word) : Word := rotr x 7 ^^^ rotr x 18 ^^^ (x >>> 3)

/-- sigma1 (49_primitives.md R107). -/
def shaSigma1 (x : Word) : Word := rotr x 17 ^^^ rotr x 19 ^^^ (x >>> 10)

/-- The round constants K[0..31] (49_primitives.md R109). -/
def shaKLow : List Word :=
  [0x428a2f98#32, 0x71374491#32, 0xb5c0fbcf#32, 0xe9b5dba5#32, 0x3956c25b#32, 0x59f111f1#32, 0x923f82a4#32, 0xab1c5ed5#32] ++
  [0xd807aa98#32, 0x12835b01#32, 0x243185be#32, 0x550c7dc3#32, 0x72be5d74#32, 0x80deb1fe#32, 0x9bdc06a7#32, 0xc19bf174#32] ++
  [0xe49b69c1#32, 0xefbe4786#32, 0x0fc19dc6#32, 0x240ca1cc#32, 0x2de92c6f#32, 0x4a7484aa#32, 0x5cb0a9dc#32, 0x76f988da#32] ++
  [0x983e5152#32, 0xa831c66d#32, 0xb00327c8#32, 0xbf597fc7#32, 0xc6e00bf3#32, 0xd5a79147#32, 0x06ca6351#32, 0x14292967#32]

/-- The round constants K[32..63] (49_primitives.md R109). -/
def shaKHigh : List Word :=
  [0x27b70a85#32, 0x2e1b2138#32, 0x4d2c6dfc#32, 0x53380d13#32, 0x650a7354#32, 0x766a0abb#32, 0x81c2c92e#32, 0x92722c85#32] ++
  [0xa2bfe8a1#32, 0xa81a664b#32, 0xc24b8b70#32, 0xc76c51a3#32, 0xd192e819#32, 0xd6990624#32, 0xf40e3585#32, 0x106aa070#32] ++
  [0x19a4c116#32, 0x1e376c08#32, 0x2748774c#32, 0x34b0bcb5#32, 0x391c0cb3#32, 0x4ed8aa4a#32, 0x5b9cca4f#32, 0x682e6ff3#32] ++
  [0x748f82ee#32, 0x78a5636f#32, 0x84c87814#32, 0x8cc70208#32, 0x90befffa#32, 0xa4506ceb#32, 0xbef9a3f7#32, 0xc67178f2#32]

/-- The round constants K[0..63] (49_primitives.md R109). -/
def shaK : List Word := shaKLow ++ shaKHigh

/-- The initial hash value V0..V7 (49_primitives.md R110). -/
def shaInit : Words8 :=
  ⟨0x6a09e667#32, 0xbb67ae85#32, 0x3c6ef372#32, 0xa54ff53a#32, 0x510e527f#32, 0x9b05688c#32, 0x1f83d9ab#32, 0x5be0cd19#32⟩

/-- The 64-bit big-endian message length in bits (49_primitives.md R108). -/
def shaLengthBytes (n : Nat) : List Byte :=
  (Quad.ofWordBE (BitVec.ofNat 32 (8 * n / 2 ^ 32))).toList ++ (Quad.ofWordBE (BitVec.ofNat 32 (8 * n))).toList

/-- The number of zero bytes, `(55 - |M|) mod 64` (49_primitives.md R108). -/
def shaZeroCount (n : Nat) : Nat := (119 - n % 64) % 64

/-- The padded message (49_primitives.md R108). -/
def shaPad (m : List Byte) : List Byte :=
  m ++ (0x80#8 :: List.replicate (shaZeroCount m.length) 0#8) ++ shaLengthBytes m.length

/-- A byte string as words, each read big-endian (49_primitives.md R107); bytes short of a group of 4 are dropped (a padded
message has none). -/
def wordsBE : List Byte → List Word
  | a :: b :: c :: d :: rest => (Quad.mk a b c d).toWordBE :: wordsBE rest
  | _ => []

/-- The schedule's next word, from the words so far with the latest first (49_primitives.md R111):
`sigma1(W[t-2]) + W[t-7] + sigma0(W[t-15]) + W[t-16]`. -/
def shaNextWord (latestFirst : List Word) : Word :=
  shaSigma1 (latestFirst.getD 1 0#32) + latestFirst.getD 6 0#32 + shaSigma0 (latestFirst.getD 14 0#32)
    + latestFirst.getD 15 0#32

/-- Extend a schedule, latest word first, by `n` words (49_primitives.md R111). -/
def shaExtend : Nat → List Word → List Word
  | 0, ws => ws
  | n + 1, ws => shaExtend n (shaNextWord ws :: ws)

/-- The message schedule W[0..63] of a block of 16 words (49_primitives.md R111). -/
def shaSchedule (block : List Word) : List Word := (shaExtend 48 block.reverse).reverse

/-- One round of the compression with round constant `k` and schedule word `w` (49_primitives.md R112); `w0` to `w7` are the
rule's a to h. -/
def shaRound (v : Words8) (k w : Word) : Words8 :=
  let t1 := v.w7 + shaBigSigma1 v.w4 + shaCh v.w4 v.w5 v.w6 + k + w
  let t2 := shaBigSigma0 v.w0 + shaMaj v.w0 v.w1 v.w2
  ⟨t1 + t2, v.w0, v.w1, v.w2, v.w3 + t1, v.w4, v.w5, v.w6⟩

/-- The 64 rounds, over pairs of round constant and schedule word (49_primitives.md R112). -/
def shaRounds : List (Word × Word) → Words8 → Words8
  | [], v => v
  | (k, w) :: rest, v => shaRounds rest (shaRound v k w)

/-- The compression of one block (49_primitives.md R112). -/
def shaCompress (v : Words8) (block : List Word) : Words8 :=
  v.add (shaRounds (List.zip shaK (shaSchedule block)) v)

/-- The compression of `n` blocks of 16 words, from the front of a list of words (49_primitives.md R108, R112). -/
def shaBlocks : Nat → Words8 → List Word → Words8
  | 0, v, _ => v
  | n + 1, v, ws => shaBlocks n (shaCompress v (ws.take 16)) (ws.drop 16)

/-- The number of blocks of a message of `n` bytes (49_primitives.md R108). -/
def shaBlockCount (n : Nat) : Nat := (n + 8) / 64 + 1

/-- SHA256 of a byte string (49_primitives.md R107 to R113). -/
def sha256 (m : List Byte) : Bytes32 :=
  Bytes32.ofWordsBE (shaBlocks (shaBlockCount m.length) shaInit (wordsBE (shaPad m)))

end Sys2Proof.Machine
end

