-- ==== Sys2Proof/Machine/Kdf.lean ====
section
/-! DEFINITION. DERIVE_KEY (41_kdf.md R82 to R91): its engine steps, its meaning, and the key derivation function of R82, which the
steps together compute. -/

namespace Sys2Proof.Machine

/-- `n` encryptions of a half, each of the previous one's output (41_kdf.md R82, step 3). -/
def stretch (k : Bytes32) : Nat → Block → Block
  | 0, x => x
  | n + 1, x => stretch k n (aes256Enc k x)

/-- Steps 4 to 6 of the key derivation (41_kdf.md R82, R86): hash both halves, then seed_16 and that hash. -/
def finalKey (seed16 l r : Block) : Bytes32 := sha256 (seed16.toList ++ (sha256 (l.toList ++ r.toList)).toList)

/-- The key derivation function KDF(P, seed_16, seed_32, rounds) (41_kdf.md R82). -/
def kdf (pass : List Byte) (seed16 : Block) (seed32 : Bytes32) (rounds : Nat) : Bytes32 :=
  finalKey seed16 (stretch seed32 rounds (sha256 pass).left) (stretch seed32 rounds (sha256 pass).right)

/-- The start step (41_kdf.md R84). -/
def deriveStart (s : State) : State :=
  if s.params.passMax < s.passLen then s.raise .passphraseTooLong s.passLen s.params.passMax
  else if s.params.maxRounds < s.hdrRounds then
    s.raise .keyDerivationTooExpensive s.hdrRounds s.params.maxRounds
  else
    { s with
      lblk := (sha256 (s.passBytes s.passLen.toNat)).left,
      rblk := (sha256 (s.passBytes s.passLen.toNat)).right,
      kdfCount := 0#32, kstep := .stretch }

/-- The round step (41_kdf.md R85). -/
def deriveRound (s : State) : State :=
  { s with
    lblk := aes256Enc s.seed32 s.lblk, rblk := aes256Enc s.seed32 s.rblk, kdfCount := s.kdfCount + 1#32 }

/-- The finish step (41_kdf.md R86). -/
def deriveFinish (s : State) : State :=
  { s with
    key := (finalKey s.seed16 s.lblk s.rblk).toWords,
    lblk := Block.zero, rblk := Block.zero, kstep := .start, phase := .keyed }.complete

/-- The engine step of DERIVE_KEY that KSTEP and KDF_COUNT select (43_control.md R102, 41_kdf.md R84 to R86). Where KDF_COUNT exceeds
the round count, which no run reaches (R85), no step is enabled and the state stays (log 9). -/
def deriveStep (s : State) : State :=
  match s.kstep with
  | .start => deriveStart s
  | .stretch =>
    if s.kdfCount < s.hdrRounds then deriveRound s
    else if s.kdfCount = s.hdrRounds then deriveFinish s
    else s

/-- DERIVE_KEY (41_kdf.md R83): the enabled engine step where the step in progress is the engine's and OP is DERIVE, and else the
host's request (43_control.md R100). -/
def execDeriveKey (s : State) : Host.Outcome State Fault Refusal :=
  if s.engineRuns .derive then .next (deriveStep s) else .next (s.request .deriveKey)

end Sys2Proof.Machine
end

