-- ==== Sys2Proof/Machine/Dispatch.lean ====
section
/-! DEFINITION. One arm per command: the meaning of each (spec/opcode_table.json). -/

namespace Sys2Proof.Machine

def exec (i : Instr) (s : State) : Host.Outcome State Fault Refusal :=
  match i with
  | .clear => Sys2Proof.Machine.execClear s
  | .parseHeader => Sys2Proof.Machine.execParseHeader s
  | .deriveKey => Sys2Proof.Machine.execDeriveKey s
  | .bodyInit => Sys2Proof.Machine.execBodyInit s
  | .decryptBlock => Sys2Proof.Machine.execDecryptBlock s

end Sys2Proof.Machine
end

