-- ==== Sys2Proof/Machine/Window.lean ====
section
/-! DEFINITION. The register window (10_state.md R14, 20_memory.md R44 to R49): which register an offset maps, and what a read of a
register returns. -/

namespace Sys2Proof.Machine

/-- The registers of the window (10_state.md R14). -/
inductive Reg where
  | id
  | ctrl
  | cmd
  | status
  | errCode
  | errInfo0
  | errInfo1
  | fileLen
  | passLen
  | kdfCount
  | blocksLeft
  | maxRounds
  | passMax
  | sig1Exp
  | sig2Exp
  | din (i : Fin 4)
  | dout (i : Fin 4)
  | chain (i : Fin 4)
  | key (i : Fin 8)
  | hdr (k : Fin 31)
  | pass (k : Nat)
deriving DecidableEq, Repr

/-- The offset of a register (10_state.md R14). -/
def Reg.offset : Reg → Nat
  | .id => 0x000
  | .ctrl => 0x004
  | .cmd => 0x008
  | .status => 0x00C
  | .errCode => 0x010
  | .errInfo0 => 0x014
  | .errInfo1 => 0x018
  | .fileLen => 0x01C
  | .passLen => 0x020
  | .kdfCount => 0x024
  | .blocksLeft => 0x028
  | .maxRounds => 0x02C
  | .passMax => 0x030
  | .sig1Exp => 0x034
  | .sig2Exp => 0x038
  | .din i => 0x040 + 4 * i.val
  | .dout i => 0x050 + 4 * i.val
  | .chain i => 0x060 + 4 * i.val
  | .key i => 0x080 + 4 * i.val
  | .hdr k => hdrBase + 4 * k.val
  | .pass k => passBase + 4 * k

/-- The register at word index `n` below 16 (10_state.md R14, offsets 0x000 to 0x03C). -/
def singleReg : Nat → Option Reg
  | 0 => some .id
  | 1 => some .ctrl
  | 2 => some .cmd
  | 3 => some .status
  | 4 => some .errCode
  | 5 => some .errInfo0
  | 6 => some .errInfo1
  | 7 => some .fileLen
  | 8 => some .passLen
  | 9 => some .kdfCount
  | 10 => some .blocksLeft
  | 11 => some .maxRounds
  | 12 => some .passMax
  | 13 => some .sig1Exp
  | 14 => some .sig2Exp
  | _ => none

/-- The register an aligned offset maps, none where it is unmapped (10_state.md R14, 20_memory.md R49). The PASS range has
PASS_MAX/4 words (10_state.md R35). -/
def regAt (p : Params) (off : Nat) : Option Reg :=
  if off < 0x040 then singleReg (off / 4)
  else if off < 0x050 then some (.din (Fin.ofNat 4 ((off - 0x040) / 4)))
  else if off < 0x060 then some (.dout (Fin.ofNat 4 ((off - 0x050) / 4)))
  else if off < 0x070 then some (.chain (Fin.ofNat 4 ((off - 0x060) / 4)))
  else if off < 0x080 then none
  else if off < 0x0A0 then some (.key (Fin.ofNat 8 ((off - 0x080) / 4)))
  else if off < 0x100 then none
  else if off < 0x17C then some (.hdr (Fin.ofNat 31 ((off - hdrBase) / 4)))
  else if off < 0x200 then none
  else if (off - passBase) / 4 < p.passMax.toNat / 4 then some (.pass ((off - passBase) / 4))
  else none

/-- The value a read of a register returns (20_memory.md R46; 10_state.md R15 to R35). -/
def State.readReg (s : State) : Reg → Word
  | .id => idValue
  | .ctrl => s.ctrlWord
  | .cmd => 0#32
  | .status => s.statusWord
  | .errCode => s.errCodeWord
  | .errInfo0 => s.errInfo0
  | .errInfo1 => s.errInfo1
  | .fileLen => s.fileLen
  | .passLen => s.passLen
  | .kdfCount => s.kdfCount
  | .blocksLeft => s.blocksLeft
  | .maxRounds => s.params.maxRounds
  | .passMax => s.params.passMax
  | .sig1Exp => s.params.sig1
  | .sig2Exp => s.params.sig2
  | .din i => s.din.get i
  | .dout i => s.dout.get i
  | .chain i => s.chain.get i
  | .key i => s.key.get i
  | .hdr k => s.hdrWord k.val
  | .pass k => Memory.readWord s.mem (passBase + 4 * k)

/-- `MemRead(off, 4)` at an aligned offset (20_memory.md R46, R49). -/
def State.memRead (s : State) (off : Nat) : Word :=
  match regAt s.params off with
  | some r => s.readReg r
  | none => 0#32

/-- The window offset of a bus address, none where the block is not selected (10_state.md R14, 20_memory.md R44; log 6). -/
def windowOffset (p : Params) (addr : Nat) : Option Nat :=
  if p.base ≤ addr ∧ addr < p.base + windowBytes then some (addr - p.base) else none

end Sys2Proof.Machine
end

