-- ==== Sys2Proof/Machine/Port.lean ====
section
/-! DEFINITION. The slave port and the other inputs: what one host access does (20_memory.md R46 to R49), what one engine turn does
(43_control.md R102), and what the pins do (70_reset_and_hazards.md R139, 60_exceptions.md R137). -/

namespace Sys2Proof.Machine

/-- A write of `w` to CMD (43_control.md R100): a defined word is its command's meaning, any other the illegal request. -/
def writeCmd (w : Word) (s : State) : Host.Outcome State Fault Refusal :=
  match decode w with
  | .ok i => exec i s
  | .error _ => .next (s.illegalRequest w)

/-- A write to an input that is dropped while OP is not NONE (43_control.md R101: PASS, PASS_LEN, DIN). -/
def State.writeInput (s t : State) : State := if s.busy then s.dropWrite else t

/-- A write to an input that is dropped while OP is not NONE or the header is locked (43_control.md R101: HDR, FILE_LEN). -/
def State.writeHeaderInput (s t : State) : State := if s.busy || s.headerLocked then s.dropWrite else t

/-- A write of `v` to a register (20_memory.md R47, 43_control.md R101). -/
def writeReg (r : Reg) (v : Word) (s : State) : Host.Outcome State Fault Refusal :=
  match r with
  | .cmd => writeCmd v s
  | .status => .next (s.writeStatus v)
  | .ctrl => .next (s.writeCtrl v)
  | .fileLen => .next (s.writeHeaderInput { s with fileLen := v })
  | .hdr k => .next (s.writeHeaderInput { s with mem := Memory.writeWord s.mem (hdrBase + 4 * k.val) v })
  | .passLen => .next (s.writeInput { s with passLen := v })
  | .din i => .next (s.writeInput { s with din := s.din.set i v })
  | .pass k => .next (s.writeInput { s with mem := Memory.writeWord s.mem (passBase + 4 * k) v })
  | .id => .next s
  | .errCode => .next s
  | .errInfo0 => .next s
  | .errInfo1 => .next s
  | .kdfCount => .next s
  | .blocksLeft => .next s
  | .maxRounds => .next s
  | .passMax => .next s
  | .sig1Exp => .next s
  | .sig2Exp => .next s
  | .dout _ => .next s
  | .chain _ => .next s
  | .key _ => .next s

/-- `MemWrite(off, 4, v)` at an aligned offset (20_memory.md R47, R49). -/
def memWrite (off : Nat) (v : Word) (s : State) : Host.Outcome State Fault Refusal :=
  match regAt s.params off with
  | some r => writeReg r v s
  | none => .next s

/-- The port answers the host's access (00_scope.md R7). -/
def State.answer (s : State) (ok : Bool) (data : Word) : State := { s with resp := some ⟨ok, data⟩ }

/-- An access is a whole aligned word (20_memory.md R45). -/
def wholeWord (off bytes : Nat) : Bool := decide (bytes = 4) && decide (off % 4 = 0)

/-- A read at a window offset: ignored under `rst` (70_reset_and_hazards.md R139), an ERROR response where it is no aligned word
(20_memory.md R48), and else R46. -/
def hostRead (off bytes : Nat) (s : State) : Host.Outcome State Fault Refusal :=
  if s.rst then .next (s.answer true 0#32)
  else if wholeWord off bytes then .next (s.answer true (s.memRead off))
  else .next (s.answer false 0#32)

/-- A write at a window offset: ignored under `rst` (70_reset_and_hazards.md R139), an ERROR response where it is no aligned word
(20_memory.md R48), and else R47. -/
def hostWrite (off bytes : Nat) (v : Word) (s : State) : Host.Outcome State Fault Refusal :=
  if s.rst then .next (s.answer true 0#32)
  else if wholeWord off bytes then memWrite off v (s.answer true 0#32)
  else .next (s.answer false 0#32)

/-- One host access (20_memory.md R52). A bus address outside the window does not select the block (log 6). -/
def hostAccess (a : Access) (s : State) : Host.Outcome State Fault Refusal :=
  match a with
  | .read addr bytes =>
    match windowOffset s.params addr with
    | some off => hostRead off bytes { s with agent := .host }
    | none => .next { s with agent := .host, resp := none }
  | .write addr bytes v =>
    match windowOffset s.params addr with
    | some off => hostWrite off bytes v { s with agent := .host }
    | none => .next { s with agent := .host, resp := none }

/-- The engine's turn: its enabled step, which is the meaning of the command in progress (43_control.md R102). None is enabled while
OP is NONE, while `rst` is asserted (70_reset_and_hazards.md R139) or while the clock is stopped (60_exceptions.md R137); the
state is then held. -/
def engineTurn (s : State) : Host.Outcome State Fault Refusal :=
  if s.powerLost then .fault .stateLost
  else if s.rst || !s.clk then .next s
  else
    match s.op.instr with
    | some i => exec i { s with agent := .engine }
    | none => .next s

/-- The level of the input `rst`: while it is asserted every register holds its reset value (70_reset_and_hazards.md R139); its
assertion also ends the loss of state that the removal of power caused (60_exceptions.md R137; log 11). DESIGN CHOICE: where
power was removed while `rst` was asserted, the level still asserted does not end the loss, and its deassertion does not
either: a new input that asserts `rst` does (log 19). -/
def State.setRst (s : State) (level : Bool) : State :=
  if level then { s.resetBlock with rst := true, powerLost := false } else { s with rst := false }

/-- What one input does. DESIGN CHOICE, safe: the loss of power is tested before `rst`, so where power was removed while `rst` was
asserted, an access or an engine turn is a fault and not the ignored access of 70_reset_and_hazards.md R139, until a new input
asserts `rst` (log 19). -/
def perform (e : Event) (s : State) : Host.Outcome State Fault Refusal :=
  match e with
  | .host a => if s.powerLost then .fault .stateLost else hostAccess a s
  | .engine => engineTurn s
  | .rst level => .next (s.setRst level)
  | .clock running => .next { s with clk := running }
  | .powerOff => .next { s with powerLost := true }

/-- The access that writes a table word to CMD: how a command reaches the block (10_state.md R17, 30_encoding.md R63). -/
def cmdAccess (p : Params) (nbits w : Nat) : Event := .host (.write (p.base + Reg.cmd.offset) 4 (tableWord nbits w))

end Sys2Proof.Machine
end

