-- ==== Sys2Proof/Machine/Step.lean ====
section
/-! DEFINITION. One step of the machine, and how a command word is placed where the next step takes it. -/

namespace Sys2Proof.Machine

/-- One step: the next input of `sched`, or with none left the engine's turn (00_scope.md R6, 20_memory.md R56,
70_reset_and_hazards.md R150; log 2). -/
def step (s : State) : Host.Outcome State Fault Refusal :=
  match s.sched with
  | [] => engineTurn s
  | e :: rest => perform e { s with sched := rest }

/-- The state with the host's write of a command word to CMD as its next input, `rst` deasserted and the state not lost, so that
the next step takes the word (log 2). -/
def State.withFetchWord (s : State) (nbits w : Nat) : State :=
  { s with sched := cmdAccess s.params nbits w :: s.sched, rst := false, powerLost := false }

end Sys2Proof.Machine
end

