-- ==== Sys2Proof/WellFormed.lean ====
section
/-! DEFINITION. Well-formedness: of a command (nothing to check: it has no operand, 30_encoding.md R63), and of the parameters
(the legal values of 00_scope.md R8). -/

namespace Sys2Proof

/-- A command is its opcode alone (30_encoding.md R63, R67: no operand is encoded), so every term is well formed. -/
def Instr.wellFormed : Instr → Bool
  | .clear => true
  | .parseHeader => true
  | .deriveKey => true
  | .bodyInit => true
  | .decryptBlock => true

/-- The legal parameter values (00_scope.md R8): BASE is 4096-byte aligned, PASS_MAX a multiple of 4 from 4 to 1024; SIG1, SIG2
and MAX_ROUNDS may be any 32-bit value. -/
def Params.legal (p : Params) : Bool :=
  decide (p.base % 4096 = 0) && decide (p.passMax.toNat % 4 = 0) && decide (4 ≤ p.passMax.toNat)
    && decide (p.passMax.toNat ≤ 1024)

end Sys2Proof
end

