-- ==== Sys2Proof/Safety.lean ====
section
/-! DEFINITION. What the statements call a good state: the memory's canonical form, the invariant of a session, and the invariant of a
key derivation in progress. Also the inputs that end a session, and the host's accesses that decrypt a body. -/

namespace Sys2Proof.Machine

/-- A window offset lies in HDR (10_state.md R34) or in PASS (R35). -/
def inWindows (p : Params) (a : Nat) : Bool :=
  (decide (hdrBase ≤ a) && decide (a < hdrBase + 124))
    || (decide (passBase ≤ a) && decide (a < passBase + 4 * (p.passMax.toNat / 4)))

/-- The memory is in canonical form and lists bytes of the two windows only (10_state.md R34, R35; log 7). -/
structure MemoryInv (s : State) : Prop where
  canonical : Memory.wf s.mem = true
  windows : ∀ c ∈ s.mem, inWindows s.params c.1 = true

/-- The phases in which a header has been parsed and accepted (10_state.md R18). -/
def Phase.parsed : Phase → Bool
  | .empty => false
  | .header => true
  | .keyed => true
  | .body => true
  | .error => false

/-- The phases in which KEY holds the final key (10_state.md R33). -/
def Phase.hasKey : Phase → Bool
  | .empty => false
  | .header => false
  | .keyed => true
  | .body => true
  | .error => false

/-- What holds of the registers at every point of a session. -/
structure SessionInv (s : State) : Prop where
  /-- PARSE_HEADER runs in EMPTY (43_control.md R99). -/
  parseInEmpty : s.op = .parse → s.phase = .empty
  /-- DERIVE_KEY runs in HEADER (43_control.md R99). -/
  deriveInHeader : s.op = .derive → s.phase = .header
  /-- BODY_INIT runs in KEYED (43_control.md R99). -/
  initInKeyed : s.op = .init → s.phase = .keyed
  /-- DECRYPT_BLOCK runs in BODY with blocks left (43_control.md R99). -/
  decryptInBody : s.op = .decrypt → s.phase = .body ∧ 0#32 < s.blocksLeft
  /-- While a command runs DONE is 0 (43_control.md R100, R102). -/
  busyNotDone : s.op ≠ .none → s.done = false
  /-- ERR_CODE is 0 exactly outside ERROR (10_state.md R19). -/
  errorCoded : s.phase = .error ↔ s.errCode ≠ .none
  /-- The context words are 0 outside ERROR (60_exceptions.md R123). -/
  noErrorNoContext : s.phase ≠ .error → s.errInfo0 = 0#32 ∧ s.errInfo1 = 0#32
  /-- No rule raises DecryptionFailed (60_exceptions.md R124). -/
  neverDecryptionFailed : s.errCode ≠ .decryptionFailed
  /-- KEY reads 0 in EMPTY, HEADER and ERROR (10_state.md R33). -/
  keyScrubbed : s.phase.hasKey = false → s.key = Words8.zero
  /-- CHAIN, DOUT and BLOCKS_LEFT are 0 outside BODY (10_state.md R25, R31, R32). -/
  bodyRegisters : s.phase ≠ .body → s.chain = Words4.zero ∧ s.dout = Words4.zero ∧ s.blocksLeft = 0#32
  /-- KSTEP is STRETCH only while DERIVE_KEY runs (10_state.md R38). -/
  stretchInDerive : s.kstep = .stretch → s.op = .derive
  /-- LBLK and RBLK are 0 but while the rounds run (10_state.md R39). -/
  halvesScrubbed : s.kstep = .start → s.lblk = Block.zero ∧ s.rblk = Block.zero
  /-- The bounds of a running derivation (41_kdf.md R85, R88). -/
  derivationBounded : s.kstep = .stretch →
    s.passLen ≤ s.params.passMax ∧ s.kdfCount ≤ s.hdrRounds ∧ s.hdrRounds ≤ s.params.maxRounds
  /-- KDF_COUNT is 0 before the session's first start step (10_state.md R24). -/
  countBefore : (s.phase = .empty ∨ s.phase = .header) → s.kstep = .start → s.kdfCount = 0#32
  /-- KDF_COUNT is the header's round count once the key is there (10_state.md R24). -/
  countAfter : s.phase.hasKey = true → s.kdfCount = s.hdrRounds
  /-- No cipher is selected before a header is parsed (10_state.md R18). -/
  cipherBefore : s.phase = .empty → s.cipher = .none
  /-- A parsed header is a valid one (40_header.md R77, R80). -/
  headerValid : s.phase.parsed = true →
    headerBytes ≤ s.fileLen ∧ s.hdrSig1 = s.params.sig1 ∧ s.hdrSig2 = s.params.sig2 ∧
    3#16 ≤ versionMajor s.hdrVersion ∧ selectCipher s.params.bothCiphers s.hdrFlags = s.cipher ∧ s.cipher ≠ .none
  /-- A body is decrypted only with AES, and is whole blocks, of which BLOCKS_LEFT counts some (42_body_cbc.md R93, R98). -/
  bodyWhole : s.phase = .body →
    s.cipher = .aes ∧ s.bodyLen % 16#32 = 0#32 ∧ s.blocksLeft ≤ s.bodyLen / 16#32
  /-- While `rst` is asserted every element holds its reset value (70_reset_and_hazards.md R139). -/
  heldInReset : s.rst = true → s = { s.resetBlock with rst := true }

/-- A key derivation in progress has done KDF_COUNT rounds on the halves of the passphrase's hash (41_kdf.md R82, R84, R85). -/
structure DerivationInv (s : State) : Prop where
  left : s.kstep = .stretch →
    s.lblk = stretch s.seed32 s.kdfCount.toNat (sha256 (s.passBytes s.passLen.toNat)).left
  right : s.kstep = .stretch →
    s.rblk = stretch s.seed32 s.kdfCount.toNat (sha256 (s.passBytes s.passLen.toNat)).right

/-- The host's write of `v` to the register at a window offset (20_memory.md R47). -/
def writeAt (p : Params) (off : Nat) (v : Word) : Event := .host (.write (p.base + off) 4 v)

/-- The host's read of the register at a window offset (20_memory.md R46). -/
def readAt (p : Params) (off : Nat) : Event := .host (.read (p.base + off) 4)

/-- The next input ends the session: the assertion of `rst`, or outside reset a write of CLEAR to CMD (43_control.md R106). -/
def State.endsSession (s : State) : Bool :=
  match s.sched with
  | .rst true :: _ => true
  | .host (.write addr bytes v) :: _ =>
    !s.rst && decide (windowOffset s.params addr = some Reg.cmd.offset) && decide (bytes = 4)
      && decide (v = encode .clear)
  | _ => false

/-- The engine can take a step now: a command runs, the clock runs, and `rst` is not asserted (43_control.md R102; 60_exceptions.md
R137; 70_reset_and_hazards.md R139), with the state not lost. -/
def State.engineReady (s : State) : Bool := s.busy && s.clk && !s.rst && !s.powerLost

/-- The inputs that decrypt one block (30_encoding.md R74, R75): LOADBLK, the command word of DECRYPT_BLOCK, one engine step. -/
def decryptInputs (p : Params) (c : Block) : List Event :=
  [writeAt p (Reg.din 0).offset c.toWords.w0, writeAt p (Reg.din 1).offset c.toWords.w1,
   writeAt p (Reg.din 2).offset c.toWords.w2, writeAt p (Reg.din 3).offset c.toWords.w3,
   writeAt p Reg.cmd.offset (encode .decryptBlock), .engine]

/-- The inputs that decrypt the blocks of a ciphertext in order (42_body_cbc.md R95). -/
def decryptAllInputs (p : Params) : List Block → List Event
  | [] => []
  | c :: cs => decryptInputs p c ++ decryptAllInputs p cs

end Sys2Proof.Machine
end

