-- ==== Sys2Proof/Certificates/Slice0/Obligations.lean ====
section
/-! DEFINITION. The statements for the provers, each from a numbered rule of spec/. -/

open Sys2Proof Sys2Proof.Machine

/-! ## Encoding -/

/-- The five words of the opcode map decode to their commands and no other word decodes (30_encoding.md R63, R64, R65). -/
def Obligations.DecodeIsExactlyTheOpcodeMap : Prop :=
  ∀ w : Word,
    (decode w = .ok .clear ↔ w = 0x00000001#32) ∧
    (decode w = .ok .parseHeader ↔ w = 0x00000002#32) ∧
    (decode w = .ok .deriveKey ↔ w = 0x00000003#32) ∧
    (decode w = .ok .bodyInit ↔ w = 0x00000004#32) ∧
    (decode w = .ok .decryptBlock ↔ w = 0x00000005#32)

/-- Every well-formed command decodes from its own encoding, also as a table word (30_encoding.md R63, R64, R66). -/
def Obligations.DecodeOfEncodeIsTheCommand : Prop :=
  ∀ i : Instr, i.wellFormed = true → decode (encode i) = .ok i ∧ decodeTableWord 32 (encode i).toNat = some i

/-- The registers' offsets are the numbers of the register map's table, and the map agrees with them: each register that exists is
mapped at its offset, and a mapped aligned offset is its register's (10_state.md R14, R35). -/
def Obligations.RegisterMapAgreesWithOffsets : Prop :=
  (Reg.id.offset = 0x000 ∧ Reg.ctrl.offset = 0x004 ∧ Reg.cmd.offset = 0x008 ∧ Reg.status.offset = 0x00C ∧
    Reg.errCode.offset = 0x010 ∧ Reg.errInfo0.offset = 0x014 ∧ Reg.errInfo1.offset = 0x018 ∧
    Reg.fileLen.offset = 0x01C ∧ Reg.passLen.offset = 0x020 ∧ Reg.kdfCount.offset = 0x024 ∧
    Reg.blocksLeft.offset = 0x028 ∧ Reg.maxRounds.offset = 0x02C ∧ Reg.passMax.offset = 0x030 ∧
    Reg.sig1Exp.offset = 0x034 ∧ Reg.sig2Exp.offset = 0x038) ∧
  (∀ i : Fin 4, (Reg.din i).offset = 0x040 + 4 * i.val ∧ (Reg.dout i).offset = 0x050 + 4 * i.val ∧
    (Reg.chain i).offset = 0x060 + 4 * i.val) ∧
  (∀ i : Fin 8, (Reg.key i).offset = 0x080 + 4 * i.val) ∧
  (∀ k : Fin 31, (Reg.hdr k).offset = 0x100 + 4 * k.val) ∧
  (∀ k : Nat, (Reg.pass k).offset = 0x200 + 4 * k) ∧
  ∀ p : Params,
    (∀ r : Reg, (∀ k, r = .pass k → k < p.passMax.toNat / 4) → regAt p r.offset = some r) ∧
    (∀ (off : Nat) (r : Reg), off % 4 = 0 → regAt p off = some r → r.offset = off)

/-- The packing of byte strings into words: byte `4k+j` of the string is bits `[8j+7 : 8j]` of word `k` (20_memory.md R50). It holds
of the header and the passphrase in their windows, of the words that pack 16 and 32 bytes (DOUT, KEY), and of the byte strings
unpacked from words (DIN, CHAIN, KEY as operands); and the operands pass, seed_16 and seed_32 are the window's bytes at their
offsets (10_state.md R30 to R35, R41). -/
def Obligations.WordsPackBytesLittleEndian : Prop :=
  (∀ (s : State) (k : Nat) (j : Fin 4),
    (s.hdrWord k).extractLsb' (8 * j.val) 8 = Memory.readByte s.mem (0x100 + 4 * k + j.val)) ∧
  (∀ (x : Block) (i j : Fin 4),
    some ((x.toWords.get i).extractLsb' (8 * j.val) 8) = x.toList[4 * i.val + j.val]?) ∧
  (∀ (x : Bytes32) (i : Fin 8) (j : Fin 4),
    some ((x.toWords.get i).extractLsb' (8 * j.val) 8) = x.toList[4 * i.val + j.val]?) ∧
  (∀ (w : Words4) (i j : Fin 4),
    (Block.ofWords w).toList[4 * i.val + j.val]? = some ((w.get i).extractLsb' (8 * j.val) 8)) ∧
  (∀ (w : Words8) (i : Fin 8) (j : Fin 4),
    (Bytes32.ofWords w).toList[4 * i.val + j.val]? = some ((w.get i).extractLsb' (8 * j.val) 8)) ∧
  (∀ (s : State) (k : Nat) (j : Fin 4),
    (s.readReg (.pass k)).extractLsb' (8 * j.val) 8 = Memory.readByte s.mem (0x200 + 4 * k + j.val)) ∧
  (∀ (s : State) (n b : Nat),
    (s.passBytes n)[b]? = if b < n then some (Memory.readByte s.mem (0x200 + b)) else none) ∧
  (∀ (s : State) (b : Fin 16), s.seed16.toList[b.val]? = some (Memory.readByte s.mem (0x100 + 16 + b.val))) ∧
  (∀ (s : State) (b : Fin 32), s.seed32.toList[b.val]? = some (Memory.readByte s.mem (0x100 + 88 + b.val)))

/-! ## The step -/

/-- A step whose input is the host's write of a command word to CMD runs the decoded command (20_memory.md R47, 43_control.md
R100), on the state whose inputs have moved on and whose port has answered OK; and `withFetchWord` places such an input. -/
def Obligations.StepRunsTheDecodedCommand : Prop :=
  (∀ (s : State) (w : Word) (i : Instr) (rest : List Event),
    s.sched = writeAt s.params 0x008 w :: rest → s.rst = false → s.powerLost = false →
    decode w = .ok i → i.wellFormed = true →
    step s = exec i { s with sched := rest, agent := .host, resp := some ⟨true, 0#32⟩ }) ∧
  (∀ (s : State) (w : Nat) (i : Instr),
    decodeTableWord 32 w = some i →
    step (s.withFetchWord 32 w) =
      exec i { s with rst := false, powerLost := false, agent := .host, resp := some ⟨true, 0#32⟩ })

/-- A step that is the engine's turn runs the command in progress (43_control.md R102): the input names the engine, or no
input is left (log 2). -/
def Obligations.EngineTurnRunsTheCommandInProgress : Prop :=
  ∀ (s : State) (i : Instr), s.op.instr = some i → s.rst = false → s.clk = true → s.powerLost = false →
    (∀ rest, s.sched = .engine :: rest → step s = exec i { s with sched := rest, agent := .engine }) ∧
    (s.sched = [] → step s = exec i { s with agent := .engine })

/-- Where no engine step is enabled, the engine's turn holds the state: OP is NONE (43_control.md R102), `rst` is asserted
(70_reset_and_hazards.md R139) or the clock is stopped (60_exceptions.md R137). That such a turn is a step at all is the
model's choice (log 2, log 10). -/
def Obligations.WithoutAnEnabledStepTheStateIsHeld : Prop :=
  ∀ (s : State), s.powerLost = false → (s.op = .none ∨ s.rst = true ∨ s.clk = false) →
    (∀ rest, s.sched = .engine :: rest → step s = .next { s with sched := rest }) ∧
    (s.sched = [] → step s = .next s)

/-- A step stops only after power was removed and before a reset, and then on an access or an engine turn, also while `rst` is held
asserted: the model's choice (log 11, log 19) where 60_exceptions.md R137 says that the state is lost. A command never stops,
in any state. -/
def Obligations.OnlyLostStateStops : Prop :=
  (∀ (i : Instr) (s : State), ∃ t, exec i s = .next t) ∧
  (∀ s : State, s.powerLost = false → ∃ t, step s = .next t) ∧
  (∀ s : State, s.powerLost = true → s.sched = [] → step s = .fault .stateLost) ∧
  (∀ (s : State) (rest : List Event), s.powerLost = true → s.sched = .engine :: rest → step s = .fault .stateLost) ∧
  (∀ (s : State) (a : Access) (rest : List Event), s.powerLost = true → s.sched = .host a :: rest →
    step s = .fault .stateLost)

/-! ## Commands: request, dropping, sequencing -/

/-- CLEAR completes in every state, and returns every register but CTRL and the constants to its reset value
(43_control.md R103). -/
def Obligations.ClearResetsTheSession : Prop :=
  ∀ s : State, exec .clear s = .next
    { s with
      done := false, drop := false, phase := .empty, cipher := .none,
      errCode := .none, errInfo0 := 0#32, errInfo1 := 0#32,
      fileLen := 0#32, passLen := 0#32, kdfCount := 0#32, blocksLeft := 0#32,
      din := ⟨0, 0, 0, 0⟩, dout := ⟨0, 0, 0, 0⟩, chain := ⟨0, 0, 0, 0⟩, key := ⟨0, 0, 0, 0, 0, 0, 0, 0⟩,
      mem := [], op := .none, kstep := .start, lblk := Block.zero, rblk := Block.zero }

/-- A request other than CLEAR is dropped while a command runs or in ERROR: only DROP changes (43_control.md R100). -/
def Obligations.RequestsAreDroppedWhenBusyOrInError : Prop :=
  ∀ (i : Instr) (s : State), i ≠ .clear → s.agent = .host → (s.op ≠ .none ∨ s.phase = .error) →
    exec i s = .next { s with drop := true }

/-- A request in its phase is accepted: DONE is cleared and OP is set, KSTEP for DERIVE_KEY (43_control.md R99, R100). -/
def Obligations.LegalRequestsAreAccepted : Prop :=
  ∀ s : State, s.agent = .host → s.op = .none →
    (s.phase = .empty → exec .parseHeader s = .next { s with done := false, op := .parse }) ∧
    (s.phase = .header → exec .deriveKey s = .next { s with done := false, op := .derive, kstep := .start }) ∧
    (s.phase = .keyed → exec .bodyInit s = .next { s with done := false, op := .init }) ∧
    (s.phase = .body → 0 < s.blocksLeft.toNat →
      exec .decryptBlock s = .next { s with done := false, op := .decrypt })

/-- A defined command other than CLEAR outside its phase, or DECRYPT_BLOCK with no block left, raises SequenceError with the
command word and the phase (43_control.md R105). What error entry does is `ErrorEntryScrubsAndRecords`. -/
def Obligations.OutOfOrderRequestsRaiseSequenceError : Prop :=
  ∀ s : State, s.agent = .host → s.op = .none → s.phase ≠ .error →
    (s.phase ≠ .empty →
      exec .parseHeader s = .next (s.raise .sequenceError 2#32 (s.phase.bits.setWidth 32))) ∧
    (s.phase ≠ .header →
      exec .deriveKey s = .next (s.raise .sequenceError 3#32 (s.phase.bits.setWidth 32))) ∧
    (s.phase ≠ .keyed →
      exec .bodyInit s = .next (s.raise .sequenceError 4#32 (s.phase.bits.setWidth 32))) ∧
    (s.phase ≠ .body ∨ s.blocksLeft = 0#32 →
      exec .decryptBlock s = .next (s.raise .sequenceError 5#32 (s.phase.bits.setWidth 32)))

/-- A word that is none of the five raises IllegalCommand with the word while no command runs and the phase is not ERROR, and
else is dropped (43_control.md R104; 30_encoding.md R65). -/
def Obligations.UndefinedWordsRaiseIllegalCommand : Prop :=
  ∀ (s : State) (w : Word) (rest : List Event),
    s.sched = writeAt s.params 0x008 w :: rest → s.rst = false → s.powerLost = false →
    w ≠ 1#32 → w ≠ 2#32 → w ≠ 3#32 → w ≠ 4#32 → w ≠ 5#32 →
    (s.op = .none → s.phase ≠ .error →
      step s = .next ({ s with sched := rest, agent := .host, resp := some ⟨true, 0#32⟩ }.raise
        .illegalCommand w 0#32)) ∧
    (s.op ≠ .none ∨ s.phase = .error →
      step s = .next { s with sched := rest, agent := .host, resp := some ⟨true, 0#32⟩, drop := true })

/-! ## PARSE_HEADER -/

/-- PARSE_HEADER's engine step with a valid header sets CIPHER and PHASE and completes (40_header.md R77; 30_encoding.md R70,
R71). Nothing else changes. -/
def Obligations.ParseHeaderSelectsTheCipher : Prop :=
  ∀ s : State, s.agent = .engine → s.op = .parse → 124 ≤ s.fileLen.toNat →
    s.hdrWord 0 = s.params.sig1 → s.hdrWord 1 = s.params.sig2 → 3 ≤ (s.hdrWord 3).toNat / 65536 →
    ((s.hdrWord 2).getLsbD 1 = true → (s.hdrWord 2).getLsbD 3 = false →
      exec .parseHeader s = .next { s with cipher := .aes, phase := .header, op := .none, done := true }) ∧
    ((s.hdrWord 2).getLsbD 1 = false → (s.hdrWord 2).getLsbD 3 = true →
      exec .parseHeader s = .next { s with cipher := .twofish, phase := .header, op := .none, done := true }) ∧
    ((s.hdrWord 2).getLsbD 1 = true → (s.hdrWord 2).getLsbD 3 = true → s.params.bothCiphers = .preferAES →
      exec .parseHeader s = .next { s with cipher := .aes, phase := .header, op := .none, done := true })

/-- PARSE_HEADER's four errors, each only where the checks before it pass (40_header.md R77, R78, R81). -/
def Obligations.ParseHeaderErrorsInOrder : Prop :=
  ∀ s : State, s.agent = .engine → s.op = .parse →
    (s.fileLen.toNat < 124 → exec .parseHeader s = .next (s.raise .malformedHeader s.fileLen 0#32)) ∧
    (124 ≤ s.fileLen.toNat → ¬(s.hdrWord 0 = s.params.sig1 ∧ s.hdrWord 1 = s.params.sig2) →
      exec .parseHeader s = .next (s.raise .badSignature (s.hdrWord 0) (s.hdrWord 1))) ∧
    (124 ≤ s.fileLen.toNat → s.hdrWord 0 = s.params.sig1 → s.hdrWord 1 = s.params.sig2 →
      (s.hdrWord 3).toNat / 65536 < 3 →
      exec .parseHeader s = .next (s.raise .unsupportedVersion (s.hdrWord 3) 0#32)) ∧
    (124 ≤ s.fileLen.toNat → s.hdrWord 0 = s.params.sig1 → s.hdrWord 1 = s.params.sig2 →
      3 ≤ (s.hdrWord 3).toNat / 65536 →
      ((s.hdrWord 2).getLsbD 1 = false ∧ (s.hdrWord 2).getLsbD 3 = false) ∨
        ((s.hdrWord 2).getLsbD 1 = true ∧ (s.hdrWord 2).getLsbD 3 = true ∧ s.params.bothCiphers = .reject) →
      exec .parseHeader s = .next (s.raise .unknownCipher (s.hdrWord 2) 0#32))

/-- Flag bits other than 1 and 3, and the minor version, have no effect: PARSE_HEADER's engine step on two states that differ only
in the windows, and there agree on both signature words, on flag bits 1 and 3 and on the major version, gives the same state but
for the windows and the context word an error reports (30_encoding.md R70, R71; 40_header.md R79). -/
def Obligations.UnexaminedHeaderBitsHaveNoEffect : Prop :=
  ∀ (s u t v : State), s.agent = .engine → s.op = .parse → u = { s with mem := u.mem } →
    u.hdrWord 0 = s.hdrWord 0 → u.hdrWord 1 = s.hdrWord 1 →
    (u.hdrWord 2).getLsbD 1 = (s.hdrWord 2).getLsbD 1 → (u.hdrWord 2).getLsbD 3 = (s.hdrWord 2).getLsbD 3 →
    (u.hdrWord 3).toNat / 65536 = (s.hdrWord 3).toNat / 65536 →
    exec .parseHeader s = .next t → exec .parseHeader u = .next v →
    v = { t with mem := u.mem, errInfo0 := v.errInfo0 }

/-! ## DERIVE_KEY -/

/-- DERIVE_KEY's start step: two bounds, then the passphrase's hash into the halves (41_kdf.md R84). -/
def Obligations.DeriveKeyStartStep : Prop :=
  ∀ s : State, s.agent = .engine → s.op = .derive → s.kstep = .start →
    (s.params.passMax.toNat < s.passLen.toNat →
      exec .deriveKey s = .next (s.raise .passphraseTooLong s.passLen s.params.passMax)) ∧
    (s.passLen.toNat ≤ s.params.passMax.toNat → s.params.maxRounds.toNat < (s.hdrWord 30).toNat →
      exec .deriveKey s = .next (s.raise .keyDerivationTooExpensive (s.hdrWord 30) s.params.maxRounds)) ∧
    (s.passLen.toNat ≤ s.params.passMax.toNat → (s.hdrWord 30).toNat ≤ s.params.maxRounds.toNat →
      exec .deriveKey s = .next
        { s with
          lblk := (sha256 (s.passBytes s.passLen.toNat)).left,
          rblk := (sha256 (s.passBytes s.passLen.toNat)).right,
          kdfCount := 0#32, kstep := .stretch })

/-- DERIVE_KEY's round step encrypts each half once under seed_32 and counts, without wrapping (41_kdf.md R85). -/
def Obligations.DeriveKeyRoundStep : Prop :=
  ∀ s : State, s.agent = .engine → s.op = .derive → s.kstep = .stretch → s.kdfCount.toNat < (s.hdrWord 30).toNat →
    (s.kdfCount + 1#32).toNat = s.kdfCount.toNat + 1 ∧
    exec .deriveKey s = .next
      { s with
        lblk := aes256Enc s.seed32 s.lblk, rblk := aes256Enc s.seed32 s.rblk, kdfCount := s.kdfCount + 1#32 }

/-- DERIVE_KEY's finish step: two hashes, the key written little-endian, the halves scrubbed, and the command completes
(41_kdf.md R86). -/
def Obligations.DeriveKeyFinishStep : Prop :=
  ∀ s : State, s.agent = .engine → s.op = .derive → s.kstep = .stretch → s.kdfCount = s.hdrWord 30 →
    exec .deriveKey s = .next
      { s with
        key := (sha256 (s.seed16.toList ++ (sha256 (s.lblk.toList ++ s.rblk.toList)).toList)).toWords,
        lblk := Block.zero, rblk := Block.zero, kstep := .start,
        phase := .keyed, op := .none, done := true }

/-- From its start step on, DERIVE_KEY takes `rounds + 2` engine steps and leaves the key derivation function's value in KEY,
`rounds` in KDF_COUNT and the phase KEYED; nothing else changes but the agent (41_kdf.md R82, R83, R86). -/
def Obligations.DeriveKeyComputesTheKdf : Prop :=
  ∀ s : State, s.op = .derive → s.kstep = .start → s.sched = [] → s.rst = false → s.clk = true → s.powerLost = false →
    s.passLen.toNat ≤ s.params.passMax.toNat → (s.hdrWord 30).toNat ≤ s.params.maxRounds.toNat →
    Host.Core.run Sys2Proof.core ((s.hdrWord 30).toNat + 2) s = .next
      { s with
        key := (kdf (s.passBytes s.passLen.toNat) s.seed16 s.seed32 (s.hdrWord 30).toNat).toWords,
        kdfCount := s.hdrWord 30, phase := .keyed, op := .none, done := true,
        kstep := .start, lblk := Block.zero, rblk := Block.zero, agent := .engine }

/-- Whatever host accesses come between its steps, a derivation in progress has done KDF_COUNT rounds on the passphrase's hash:
every step keeps it (41_kdf.md R84, R85, R91; 43_control.md R101). -/
def Obligations.DerivationInProgressIsKept : Prop :=
  ∀ s t : State, SessionInv s → DerivationInv s → step s = .next t → DerivationInv t

/-- Whatever came between its steps, the key that DERIVE_KEY leaves is the key derivation function's value (41_kdf.md R86, R91). -/
def Obligations.FinishedKeyIsTheKdfUnderAnyInterleaving : Prop :=
  ∀ s t : State, SessionInv s → DerivationInv s → step s = .next t → s.phase = .header → t.phase = .keyed →
    t.key = (kdf (s.passBytes s.passLen.toNat) s.seed16 s.seed32 (s.hdrWord 30).toNat).toWords ∧
    t.kdfCount = s.hdrWord 30

/-- The key depends on the passphrase bytes, seed_16, seed_32 and the round count alone: two derivations that agree on these and
on nothing else required leave the same KEY (41_kdf.md R91). -/
def Obligations.KeyDependsOnTheKdfInputsAlone : Prop :=
  ∀ s u : State, s.op = .derive → s.kstep = .start → s.sched = [] → s.rst = false → s.clk = true → s.powerLost = false →
    u.op = .derive → u.kstep = .start → u.sched = [] → u.rst = false → u.clk = true → u.powerLost = false →
    s.passLen.toNat ≤ s.params.passMax.toNat → u.passLen.toNat ≤ u.params.passMax.toNat →
    (s.hdrWord 30).toNat ≤ s.params.maxRounds.toNat → (u.hdrWord 30).toNat ≤ u.params.maxRounds.toNat →
    s.passBytes s.passLen.toNat = u.passBytes u.passLen.toNat → s.seed16 = u.seed16 → s.seed32 = u.seed32 →
    s.hdrWord 30 = u.hdrWord 30 →
    ∃ s' u', Host.Core.run Sys2Proof.core ((s.hdrWord 30).toNat + 2) s = .next s' ∧
      Host.Core.run Sys2Proof.core ((u.hdrWord 30).toNat + 2) u = .next u' ∧
      s'.key = u'.key ∧ s'.phase = .keyed ∧ u'.phase = .keyed

/-! ## BODY_INIT and DECRYPT_BLOCK -/

/-- BODY_INIT's engine step on whole blocks loads the IV and the block count and completes (42_body_cbc.md R93). -/
def Obligations.BodyInitLoadsTheIv : Prop :=
  ∀ s : State, s.agent = .engine → s.op = .init → s.cipher ≠ .twofish →
    124 ≤ s.fileLen.toNat → (s.fileLen.toNat - 124) % 16 = 0 →
    exec .bodyInit s = .next
      { s with
        chain := ⟨s.hdrWord 8, s.hdrWord 9, s.hdrWord 10, s.hdrWord 11⟩,
        blocksLeft := BitVec.ofNat 32 ((s.fileLen.toNat - 124) / 16),
        phase := .body, op := .none, done := true }

/-- BODY_INIT's two errors: a Twofish header whatever the length, then a body that is not whole blocks (42_body_cbc.md R93,
R97). -/
def Obligations.BodyInitErrorsInOrder : Prop :=
  ∀ s : State, s.agent = .engine → s.op = .init →
    (s.cipher = .twofish → exec .bodyInit s = .next (s.raise .unsupportedCipher (s.hdrWord 2) 0#32)) ∧
    (s.cipher ≠ .twofish → 124 ≤ s.fileLen.toNat → (s.fileLen.toNat - 124) % 16 ≠ 0 →
      exec .bodyInit s = .next (s.raise .truncatedCiphertext (BitVec.ofNat 32 (s.fileLen.toNat - 124))
        (BitVec.ofNat 32 ((s.fileLen.toNat - 124) % 16))))

/-- DECRYPT_BLOCK's engine step: DOUT is the decrypted DIN xor the chaining value, DIN becomes the chaining value, one block less
is left, and the command completes in BODY (42_body_cbc.md R94). -/
def Obligations.DecryptBlockDecryptsAndChains : Prop :=
  ∀ s : State, s.agent = .engine → s.op = .decrypt → 0 < s.blocksLeft.toNat →
    exec .decryptBlock s = .next
      { s with
        dout := ((aes256Dec (Bytes32.ofWords s.key) (Block.ofWords s.din)).xor (Block.ofWords s.chain)).toWords,
        chain := s.din,
        blocksLeft := BitVec.ofNat 32 (s.blocksLeft.toNat - 1),
        op := .none, done := true }

/-- Writing the blocks of a ciphertext into DIN one at a time, each with a DECRYPT_BLOCK, leaves in DOUT after the last of them
the last plaintext block that CBC decryption gives, from CHAIN's value at the start (42_body_cbc.md R92, R95). It holds for
every number of blocks with any inputs after them, so for every prefix of a body. -/
def Obligations.DecryptingBlockByBlockIsCbc : Prop :=
  ∀ (s : State) (cs : List Block) (rest : List Event),
    s.phase = .body → s.op = .none → s.rst = false → s.clk = true → s.powerLost = false →
    s.sched = decryptAllInputs s.params cs ++ rest → cs ≠ [] → cs.length ≤ s.blocksLeft.toNat →
    ∃ t, Host.Core.run Sys2Proof.core (6 * cs.length) s = .next t ∧
      (cbcDec (Bytes32.ofWords s.key) (Block.ofWords s.chain) cs).getLast? = some (Block.ofWords t.dout) ∧
      cs.getLast? = some (Block.ofWords t.chain) ∧
      t.blocksLeft.toNat + cs.length = s.blocksLeft.toNat ∧
      t.phase = .body ∧ t.op = .none ∧ t.key = s.key ∧ t.sched = rest

/-! ## Errors -/

/-- Error entry records the code and context, scrubs the key material and the body registers, ends the command and sets DONE;
every other register keeps its value (60_exceptions.md R125). -/
def Obligations.ErrorEntryScrubsAndRecords : Prop :=
  ∀ (s : State) (e : ErrCode) (i0 i1 : Word), s.raise e i0 i1 =
    { s with
      errCode := e, errInfo0 := i0, errInfo1 := i1, phase := .error,
      key := ⟨0, 0, 0, 0, 0, 0, 0, 0⟩, lblk := Block.zero, rblk := Block.zero,
      chain := ⟨0, 0, 0, 0⟩, dout := ⟨0, 0, 0, 0⟩, blocksLeft := 0#32,
      op := .none, kstep := .start, done := true }

/-- Errors are precise: where a step of a command enters ERROR, the state is the state before with error entry applied, and
nothing else of the command was done (60_exceptions.md R126). -/
def Obligations.ErrorsArePrecise : Prop :=
  ∀ (i : Instr) (s t : State), exec i s = .next t → s.phase ≠ .error → t.phase = .error →
    t = s.raise t.errCode t.errInfo0 t.errInfo1 ∧ t.errCode ≠ .none ∧ t.errCode ≠ .decryptionFailed

/-- In ERROR the first error is kept: until an input ends the session, no step changes ERR_CODE, ERR_INFO0 or ERR_INFO1 or leaves
the phase, and no engine step is enabled; CLEAR and reset are the only ways out (60_exceptions.md R127, R128). -/
def Obligations.FirstErrorIsKeptUntilClearOrReset : Prop :=
  ∀ s t : State, s.phase = .error → s.op = .none → step s = .next t →
    (s.endsSession = false →
      t.phase = .error ∧ t.op = .none ∧ t.errCode = s.errCode ∧ t.errInfo0 = s.errInfo0 ∧ t.errInfo1 = s.errInfo1) ∧
    (s.endsSession = true →
      t.phase = .empty ∧ t.op = .none ∧ t.errCode = .none ∧ t.errInfo0 = 0#32 ∧ t.errInfo1 = 0#32)

/-- A session only moves forward: until an input ends it, the phase stays, moves from EMPTY to HEADER, to KEYED, to BODY, or to
ERROR (43_control.md R99, R106). -/
def Obligations.PhaseMovesForward : Prop :=
  ∀ s t : State, SessionInv s → step s = .next t → s.endsSession = false →
    t.phase = s.phase ∨ t.phase = .error ∨
      (s.phase = .empty ∧ t.phase = .header) ∨ (s.phase = .header ∧ t.phase = .keyed) ∨
      (s.phase = .keyed ∧ t.phase = .body)

/-! ## Inputs, windows and accesses -/

/-- The header is immutable once parsed: while PHASE is not EMPTY no step changes FILE_LEN or a byte of HDR, unless its input
ends the session (10_state.md R37; 40_header.md R80). -/
def Obligations.HeaderIsImmutableOnceParsed : Prop :=
  ∀ s t : State, s.phase ≠ .empty → s.endsSession = false → step s = .next t →
    t.fileLen = s.fileLen ∧
    ∀ a, 0x100 ≤ a → a < 0x100 + 124 → Memory.readByte t.mem a = Memory.readByte s.mem a

/-- No input of a running command changes under it: while OP is not NONE no step changes FILE_LEN, PASS_LEN, DIN, or a byte of
HDR or PASS, unless its input ends the session (43_control.md R101; 20_memory.md R61). -/
def Obligations.InputsOfARunningCommandAreHeld : Prop :=
  ∀ s t : State, s.op ≠ .none → s.endsSession = false → step s = .next t →
    t.fileLen = s.fileLen ∧ t.passLen = s.passLen ∧ t.din = s.din ∧
    ∀ a, Memory.readByte t.mem a = Memory.readByte s.mem a

/-- The frame of the commands other than CLEAR: none changes a parameter, CTRL, FILE_LEN, PASS_LEN, DIN, a pin, the inputs to come or
the port's answer, nor any byte of the windows, for none of their forms stores to memory (10_state.md R22, R23, R30, R34, R35). -/
def Obligations.CommandsKeepTheirInputs : Prop :=
  ∀ (i : Instr) (s t : State), i ≠ .clear → exec i s = .next t →
    t.params = s.params ∧ t.irqEn = s.irqEn ∧ t.fileLen = s.fileLen ∧ t.passLen = s.passLen ∧ t.din = s.din ∧
    t.rst = s.rst ∧ t.clk = s.clk ∧ t.powerLost = s.powerLost ∧ t.sched = s.sched ∧ t.agent = s.agent ∧
    t.resp = s.resp ∧ ∀ a, Memory.readByte t.mem a = Memory.readByte s.mem a

/-- A read of a register returns its value with an OK response and changes nothing of the block (20_memory.md R46, R53). The value
of each register is its field: CTRL has IRQ_EN in bit 0 and 0 above, CMD reads 0, ERR_CODE reads the code of the error
(60_exceptions.md R123), the words of a range are read in order, and HDR and PASS are the words of their windows (10_state.md R16,
R17, R19 to R25, R30 to R35). STATUS is `StatusReadsItsFields`, the constants `ConstantRegistersNeverChange`. -/
def Obligations.ReadsReturnTheRegisterAndChangeNothing : Prop :=
  (∀ (s : State) (r : Reg) (rest : List Event), s.rst = false → s.powerLost = false → s.params.legal = true →
    (∀ k, r = .pass k → k < s.params.passMax.toNat / 4) → s.sched = readAt s.params r.offset :: rest →
    step s = .next { s with sched := rest, agent := .host, resp := some ⟨true, s.readReg r⟩ }) ∧
  ∀ s : State,
    s.readReg .ctrl = (if s.irqEn then 1#32 else 0#32) ∧ s.readReg .cmd = 0#32 ∧
    s.readReg .errCode =
      (match s.errCode with
        | .none => 0#32
        | .malformedHeader => 1#32
        | .badSignature => 2#32
        | .unsupportedVersion => 3#32
        | .unknownCipher => 4#32
        | .unsupportedCipher => 5#32
        | .keyDerivationTooExpensive => 6#32
        | .truncatedCiphertext => 7#32
        | .decryptionFailed => 8#32
        | .passphraseTooLong => 9#32
        | .sequenceError => 10#32
        | .illegalCommand => 11#32) ∧
    s.readReg .errInfo0 = s.errInfo0 ∧ s.readReg .errInfo1 = s.errInfo1 ∧
    s.readReg .fileLen = s.fileLen ∧ s.readReg .passLen = s.passLen ∧
    s.readReg .kdfCount = s.kdfCount ∧ s.readReg .blocksLeft = s.blocksLeft ∧
    (s.readReg (.din 0) = s.din.w0 ∧ s.readReg (.din 1) = s.din.w1 ∧ s.readReg (.din 2) = s.din.w2 ∧
      s.readReg (.din 3) = s.din.w3) ∧
    (s.readReg (.dout 0) = s.dout.w0 ∧ s.readReg (.dout 1) = s.dout.w1 ∧ s.readReg (.dout 2) = s.dout.w2 ∧
      s.readReg (.dout 3) = s.dout.w3) ∧
    (s.readReg (.chain 0) = s.chain.w0 ∧ s.readReg (.chain 1) = s.chain.w1 ∧ s.readReg (.chain 2) = s.chain.w2 ∧
      s.readReg (.chain 3) = s.chain.w3) ∧
    (s.readReg (.key 0) = s.key.w0 ∧ s.readReg (.key 1) = s.key.w1 ∧ s.readReg (.key 2) = s.key.w2 ∧
      s.readReg (.key 3) = s.key.w3 ∧ s.readReg (.key 4) = s.key.w4 ∧ s.readReg (.key 5) = s.key.w5 ∧
      s.readReg (.key 6) = s.key.w6 ∧ s.readReg (.key 7) = s.key.w7) ∧
    (∀ k : Fin 31, s.readReg (.hdr k) = Memory.readWord s.mem (0x100 + 4 * k.val)) ∧
    (∀ k : Nat, s.readReg (.pass k) = Memory.readWord s.mem (0x200 + 4 * k))

/-- STATUS reads as its fields: BUSY exactly while OP is not NONE, DONE, DROP, the codes of PHASE and CIPHER, and the reserved bits
0 (10_state.md R18, R36). -/
def Obligations.StatusReadsItsFields : Prop :=
  ∀ s : State,
    (s.readReg .status).getLsbD 0 = decide (s.op ≠ .none) ∧
    (s.readReg .status).getLsbD 1 = s.done ∧
    (s.readReg .status).getLsbD 2 = s.drop ∧
    (s.readReg .status).getLsbD 3 = false ∧
    (s.readReg .status).extractLsb' 4 3 =
      (match s.phase with | .empty => 0#3 | .header => 1#3 | .keyed => 2#3 | .body => 3#3 | .error => 7#3) ∧
    (s.readReg .status).getLsbD 7 = false ∧
    (s.readReg .status).extractLsb' 8 2 = (match s.cipher with | .none => 0#2 | .aes => 1#2 | .twofish => 2#2) ∧
    (s.readReg .status).extractLsb' 10 22 = 0#22

/-- An access that is not a 32-bit one at a multiple of 4 gets an ERROR response with data 0 and changes nothing
(20_memory.md R48). -/
def Obligations.BadAccessesGetAnErrorResponse : Prop :=
  ∀ (s : State) (off bytes : Nat) (v : Word) (rest : List Event), s.rst = false → s.powerLost = false →
    off < 4096 → (bytes ≠ 4 ∨ off % 4 ≠ 0) →
    (s.sched = .host (.read (s.params.base + off) bytes) :: rest →
      step s = .next { s with sched := rest, agent := .host, resp := some ⟨false, 0#32⟩ }) ∧
    (s.sched = .host (.write (s.params.base + off) bytes v) :: rest →
      step s = .next { s with sched := rest, agent := .host, resp := some ⟨false, 0#32⟩ })

/-- Unmapped aligned offsets read 0 and ignore writes, with an OK response, DROP unchanged (20_memory.md R49), in reset too. -/
def Obligations.UnmappedOffsetsReadZeroAndIgnoreWrites : Prop :=
  ∀ (s : State) (off : Nat) (v : Word) (rest : List Event), s.powerLost = false → s.params.legal = true → off % 4 = 0 →
    (off = 0x03C ∨ (0x070 ≤ off ∧ off < 0x080) ∨ (0x0A0 ≤ off ∧ off < 0x100) ∨ (0x17C ≤ off ∧ off < 0x200) ∨
      (0x200 + s.params.passMax.toNat ≤ off ∧ off < 4096)) →
    (s.sched = readAt s.params off :: rest ∨ s.sched = writeAt s.params off v :: rest) →
    step s = .next { s with sched := rest, agent := .host, resp := some ⟨true, 0#32⟩ }

/-- Writes to read-only registers are ignored, with an OK response and DROP unchanged (20_memory.md R47). -/
def Obligations.WritesToReadOnlyRegistersAreIgnored : Prop :=
  ∀ (s : State) (r : Reg) (v : Word) (rest : List Event), s.rst = false → s.powerLost = false →
    (r ∈ [Reg.id, .errCode, .errInfo0, .errInfo1, .kdfCount, .blocksLeft, .maxRounds, .passMax, .sig1Exp, .sig2Exp] ∨
      (∃ i, r = .dout i) ∨ (∃ i, r = .chain i) ∨ (∃ i, r = .key i)) →
    s.sched = writeAt s.params r.offset v :: rest →
    step s = .next { s with sched := rest, agent := .host, resp := some ⟨true, 0#32⟩ }

/-- CTRL and STATUS are written in every phase and while busy: CTRL's bit 0, and DONE and DROP by write-1-to-clear
(10_state.md R16, R18; 20_memory.md R47; 43_control.md R101). -/
def Obligations.ControlAndStatusWritesAreNeverDropped : Prop :=
  ∀ (s : State) (v : Word) (rest : List Event), s.rst = false → s.powerLost = false →
    (s.sched = writeAt s.params 0x004 v :: rest →
      step s = .next { s with sched := rest, agent := .host, resp := some ⟨true, 0#32⟩, irqEn := v.getLsbD 0 }) ∧
    (s.sched = writeAt s.params 0x00C v :: rest →
      step s = .next
        { s with
          sched := rest, agent := .host, resp := some ⟨true, 0#32⟩,
          done := if v.getLsbD 1 then false else s.done, drop := if v.getLsbD 2 then false else s.drop })

/-- A write to HDR[k] before the header is parsed and while no command runs is taken: HDR[k] then reads the value, and no byte
outside its four changes, nor any other register (10_state.md R34; 20_memory.md R47, R50). -/
def Obligations.HeaderWriteIsTakenAndReadBack : Prop :=
  ∀ (s : State) (k : Fin 31) (v : Word) (rest : List Event), s.rst = false → s.powerLost = false →
    Memory.wf s.mem = true → s.op = .none → s.phase = .empty →
    s.sched = writeAt s.params (0x100 + 4 * k.val) v :: rest →
    ∃ m, step s = .next { s with sched := rest, agent := .host, resp := some ⟨true, 0#32⟩, mem := m } ∧
      State.hdrWord { s with mem := m } k.val = v ∧
      ∀ a, (a < 0x100 + 4 * k.val ∨ 0x100 + 4 * k.val + 4 ≤ a) → Memory.readByte m a = Memory.readByte s.mem a

/-- A write to PASS[k] while no command runs is taken in every phase: PASS[k] then reads the value, and no byte outside its four
changes, nor any other register (10_state.md R35; 20_memory.md R47, R50). -/
def Obligations.PassphraseWriteIsTakenAndReadBack : Prop :=
  ∀ (s : State) (k : Nat) (v : Word) (rest : List Event), s.rst = false → s.powerLost = false →
    Memory.wf s.mem = true → s.params.legal = true → k < s.params.passMax.toNat / 4 → s.op = .none →
    s.sched = writeAt s.params (0x200 + 4 * k) v :: rest →
    ∃ m, step s = .next { s with sched := rest, agent := .host, resp := some ⟨true, 0#32⟩, mem := m } ∧
      State.readReg { s with mem := m } (.pass k) = v ∧
      ∀ a, (a < 0x200 + 4 * k ∨ 0x200 + 4 * k + 4 ≤ a) → Memory.readByte m a = Memory.readByte s.mem a

/-- Writes to FILE_LEN, PASS_LEN and DIN[i] that are not dropped set the register and change nothing else (10_state.md R22, R23,
R30; 20_memory.md R47). -/
def Obligations.LengthAndBlockWritesAreTaken : Prop :=
  ∀ (s : State) (v : Word) (rest : List Event), s.rst = false → s.powerLost = false → s.op = .none →
    (s.phase = .empty → s.sched = writeAt s.params 0x01C v :: rest →
      step s = .next { s with sched := rest, agent := .host, resp := some ⟨true, 0#32⟩, fileLen := v }) ∧
    (s.sched = writeAt s.params 0x020 v :: rest →
      step s = .next { s with sched := rest, agent := .host, resp := some ⟨true, 0#32⟩, passLen := v }) ∧
    (∀ i : Fin 4, s.sched = writeAt s.params (0x040 + 4 * i.val) v :: rest →
      ∃ d, step s = .next { s with sched := rest, agent := .host, resp := some ⟨true, 0#32⟩, din := d } ∧
        d.get i = v ∧ ∀ j, j ≠ i → d.get j = s.din.get j)

/-- Dropped writes: to FILE_LEN and HDR while a command runs or PHASE is not EMPTY, to PASS_LEN, DIN and PASS while a command
runs; DROP is set and the register keeps its value (43_control.md R101; 10_state.md R37). -/
def Obligations.WritesToHeldInputsAreDropped : Prop :=
  ∀ (s : State) (r : Reg) (v : Word) (rest : List Event), s.rst = false → s.powerLost = false → s.params.legal = true →
    s.sched = writeAt s.params r.offset v :: rest →
    ((r = .fileLen ∨ ∃ k, r = .hdr k) ∧ (s.op ≠ .none ∨ s.phase ≠ .empty)) ∨
      ((r = .passLen ∨ (∃ i, r = .din i) ∨ ∃ k, k < s.params.passMax.toNat / 4 ∧ r = .pass k) ∧ s.op ≠ .none) →
    step s = .next { s with sched := rest, agent := .host, resp := some ⟨true, 0#32⟩, drop := true }

/-! ## Reset, interrupt, constants -/

/-- The assertion of `rst` returns every register to its reset value, in every state; while it is asserted reads return 0 and
writes have no effect, with an OK response; its deassertion changes nothing else (70_reset_and_hazards.md R139). That this
holds for accesses of every width and alignment (log 5), and that the assertion ends the loss of state (log 11), is the model's
choice. -/
def Obligations.ResetInputResetsAndIgnoresAccesses : Prop :=
  (∀ (s : State) (rest : List Event), s.sched = .rst true :: rest → step s = .next
    { State.reset with
      params := s.params, clk := s.clk, agent := s.agent, resp := s.resp, sched := rest, rst := true }) ∧
  (∀ (s : State) (off bytes : Nat) (v : Word) (rest : List Event), s.rst = true → s.powerLost = false → off < 4096 →
    (s.sched = .host (.read (s.params.base + off) bytes) :: rest ∨
      s.sched = .host (.write (s.params.base + off) bytes v) :: rest) →
    step s = .next { s with sched := rest, agent := .host, resp := some ⟨true, 0#32⟩ }) ∧
  (∀ (s : State) (rest : List Event), s.sched = .rst false :: rest →
    step s = .next { s with sched := rest, rst := false })

/-- After reset every register reads its reset value, OP, KSTEP, LBLK and RBLK hold theirs, and the interrupt output is low
(10_state.md R43; 70_reset_and_hazards.md R141). The parameters have the defaults of 00_scope.md R8. -/
def Obligations.RegistersReadTheirResetValues : Prop :=
  State.reset.readReg .id = 0x4B444233#32 ∧ State.reset.readReg .maxRounds = 0x01000000#32 ∧
  State.reset.readReg .passMax = 0x00000100#32 ∧ State.reset.readReg .sig1Exp = 0x9AA2D903#32 ∧
  State.reset.readReg .sig2Exp = 0xB54BFB65#32 ∧
  (∀ r : Reg, r ∉ [Reg.id, .maxRounds, .passMax, .sig1Exp, .sig2Exp] → State.reset.readReg r = 0#32) ∧
  State.reset.op = .none ∧ State.reset.kstep = .start ∧ State.reset.lblk = Block.zero ∧
  State.reset.rblk = Block.zero ∧ State.reset.irq = false

/-- The constant registers read ID's constant and the parameters MAX_ROUNDS, PASS_MAX, SIG1 and SIG2, in every state, and no step
changes a parameter, so they read the same for ever (10_state.md R15, R26 to R29). -/
def Obligations.ConstantRegistersNeverChange : Prop :=
  (∀ s : State,
    s.readReg .id = 0x4B444233#32 ∧ s.readReg .maxRounds = s.params.maxRounds ∧
    s.readReg .passMax = s.params.passMax ∧ s.readReg .sig1Exp = s.params.sig1 ∧
    s.readReg .sig2Exp = s.params.sig2) ∧
  ∀ (s t : State), step s = .next t → t.params = s.params ∧
    ∀ r ∈ [Reg.id, .maxRounds, .passMax, .sig1Exp, .sig2Exp], t.readReg r = s.readReg r

/-- The interrupt output is CTRL bit 0 and STATUS bit 1 as they read (after a loss of power that is the model's choice, log 18). A dropped write leaves it; completion and error entry
raise it when it is enabled; a write of 1 to STATUS bit 1, the acceptance of a command, CLEAR and reset lower it
(60_exceptions.md R130). -/
def Obligations.InterruptFollowsDoneAndEnable : Prop :=
  (∀ s : State, s.irq = ((s.readReg .ctrl).getLsbD 0 && (s.readReg .status).getLsbD 1)) ∧
  (∀ s : State, s.dropWrite.irq = s.irq) ∧
  (∀ (s : State) (e : ErrCode) (i0 i1 : Word), s.complete.irq = s.irqEn ∧ (s.raise e i0 i1).irq = s.irqEn) ∧
  (∀ (s : State) (v : Word), v.getLsbD 1 = true → (s.writeStatus v).irq = false) ∧
  (∀ (s : State) (i : Instr), (s.accept i).irq = false ∧ s.clearSession.irq = false ∧ s.resetBlock.irq = false)

/-! ## Invariants and liveness -/

/-- The state after reset meets the three invariants. -/
def Obligations.ResetMeetsTheInvariants : Prop :=
  MemoryInv State.reset ∧ SessionInv State.reset ∧ DerivationInv State.reset

/-- Every step keeps the memory in canonical form, within the HDR and PASS windows (10_state.md R34, R35; the form is the model's
choice, log 7). -/
def Obligations.MemoryStaysCanonical : Prop :=
  ∀ s t : State, MemoryInv s → step s = .next t → MemoryInv t

/-- Every step keeps the session's invariant: what the registers hold in each phase and while each command runs
(`SessionInv`; 10_state.md R18 to R39, 43_control.md R99, 60_exceptions.md R123 to R127). -/
def Obligations.SessionInvariantIsKept : Prop :=
  ∀ s t : State, SessionInv s → step s = .next t → SessionInv t

/-- Left to the engine, a running command ends: after one engine step, or at most `rounds + 2` for DERIVE_KEY, BUSY is 0 and DONE
is 1 (70_reset_and_hazards.md R150). -/
def Obligations.RunningCommandsEnd : Prop :=
  ∀ s : State, SessionInv s → s.op ≠ .none → s.sched = [] → s.rst = false → s.clk = true → s.powerLost = false →
    ∃ n t, 0 < n ∧ n ≤ (if s.op = .derive then (s.hdrWord 30).toNat + 2 else 1) ∧
      Host.Core.run Sys2Proof.core n s = .next t ∧ t.op = .none ∧ t.done = true

/-! ## Primitives -/

/-- AES-256 decryption undoes AES-256 encryption, for every key and block (49_primitives.md R121). -/
def Obligations.AesDecryptionInvertsEncryption : Prop :=
  ∀ (k : Bytes32) (x : Block), aes256Dec k (aes256Enc k x) = x

/-- The S-box table is the affine map of the inverse in GF(2^8), `inv(a) = a^254`, and InvSbox undoes it (49_primitives.md
R114, R116, R117). The power is the product of `a^2`, `a^4`, .., `a^128`, whose exponents add up to 254: the fold carries the
product so far and the last square. -/
def Obligations.SboxIsTheAffineInverse : Prop :=
  ∀ a : Byte,
    (let b := ((List.range 7).foldl (fun p _ => (gfMul p.1 (gfMul p.2 p.2), gfMul p.2 p.2)) (1#8, a)).1
     sbox a = b ^^^ b.rotateLeft 1 ^^^ b.rotateLeft 2 ^^^ b.rotateLeft 3 ^^^ b.rotateLeft 4 ^^^ 0x63#8) ∧
    invSbox (sbox a) = a

/-- A padded message is a whole number of 64-byte blocks, the number the rule gives, and begins with the message
(49_primitives.md R108). -/
def Obligations.PaddedMessageIsWholeBlocks : Prop :=
  ∀ m : List Byte,
    (shaPad m).length = 64 * ((m.length + 8) / 64 + 1) ∧ m <+: shaPad m ∧
    (wordsBE (shaPad m)).length = 16 * shaBlockCount m.length

/-- The examples of the standards: SHA256 of `abc`, and the AES-256 example in both directions (49_primitives.md R113, R120,
R121). -/
def Obligations.PrimitivesMatchTheStandardExamples : Prop :=
  sha256 [0x61#8, 0x62#8, 0x63#8] =
    Bytes32.ofWordsBE ⟨0xba7816bf#32, 0x8f01cfea#32, 0x414140de#32, 0x5dae2223#32, 0xb00361a3#32, 0x96177a9c#32,
      0xb410ff61#32, 0xf20015ad#32⟩ ∧
  (let k := Bytes32.ofWordsBE ⟨0x00010203#32, 0x04050607#32, 0x08090a0b#32, 0x0c0d0e0f#32, 0x10111213#32, 0x14151617#32,
      0x18191a1b#32, 0x1c1d1e1f#32⟩
   let x : Block := ⟨.ofWordBE 0x00112233#32, .ofWordBE 0x44556677#32, .ofWordBE 0x8899aabb#32, .ofWordBE 0xccddeeff#32⟩
   let y : Block := ⟨.ofWordBE 0x8ea2b7ca#32, .ofWordBE 0x516745bf#32, .ofWordBE 0xeafc4990#32, .ofWordBE 0x4b496089#32⟩
   aes256Enc k x = y ∧ aes256Dec k y = x)
end

