-- ==== Sys2Proof/Laws/Bytes.lean ====
section
/-! SUPPORT. The packings undo each other (00_scope.md R10, 20_memory.md R50). -/

namespace Sys2Proof

@[simp] theorem Quad.ofWordLE_toWordLE (q : Quad) : Quad.ofWordLE q.toWordLE = q := by
  obtain ⟨a, b, c, d⟩ := q
  simp only [Quad.ofWordLE, Quad.toWordLE, Quad.mk.injEq]
  refine ⟨?_, ?_, ?_, ?_⟩ <;>
    (apply BitVec.eq_of_getLsbD_eq; intro i hi; simp [hi]; try grind)

@[simp] theorem Quad.toWordLE_ofWordLE (w : Word) : (Quad.ofWordLE w).toWordLE = w := by
  simp only [Quad.ofWordLE, Quad.toWordLE]
  apply BitVec.eq_of_getLsbD_eq; intro i hi
  simp [hi]
  rcases Nat.lt_or_ge i 8 with h | h
  · simp [h]; grind
  rcases Nat.lt_or_ge i 16 with h | h
  · grind
  rcases Nat.lt_or_ge i 24 with h | h
  · grind
  · grind

/-- Byte `j` of a group is bits `[8j+7 : 8j]` of the word that packs it (20_memory.md R50). -/
theorem Quad.toWordLE_byte (q : Quad) (j : Fin 4) : some (q.toWordLE.extractLsb' (8 * j.val) 8) = q.toList[j.val]? := by
  have h := Quad.ofWordLE_toWordLE q
  fin_cases j
  · exact congrArg (fun p => some (Quad.b0 p)) h
  · exact congrArg (fun p => some (Quad.b1 p)) h
  · exact congrArg (fun p => some (Quad.b2 p)) h
  · exact congrArg (fun p => some (Quad.b3 p)) h

@[simp] theorem Quad.xor_xor_cancel (x y : Quad) : (x.xor y).xor y = x := by
  simp [Quad.xor]

@[simp] theorem Block.xor_xor_cancel (x y : Block) : (x.xor y).xor y = x := by
  simp [Block.xor]

@[simp] theorem Block.ofWords_toWords (x : Block) : Block.ofWords x.toWords = x := by
  simp [Block.ofWords, Block.toWords]

@[simp] theorem Block.toWords_ofWords (x : Words4) : (Block.ofWords x).toWords = x := by
  simp [Block.ofWords, Block.toWords]

@[simp] theorem Bytes32.ofWords_toWords (x : Bytes32) : Bytes32.ofWords x.toWords = x := by
  simp [Bytes32.ofWords, Bytes32.toWords]

@[simp] theorem Bytes32.toWords_ofWords (x : Words8) : (Bytes32.ofWords x).toWords = x := by
  simp [Bytes32.ofWords, Bytes32.toWords]

@[simp] theorem Words4.get_set_same (x : Words4) (i : Fin 4) (v : Word) : (x.set i v).get i = v := by
  fin_cases i <;> rfl

theorem Words4.get_set_ne (x : Words4) (i j : Fin 4) (v : Word) (h : j ≠ i) : (x.set i v).get j = x.get j := by
  fin_cases i <;> fin_cases j <;> first | rfl | exact absurd rfl h

@[simp] theorem Quad.toList_length (q : Quad) : q.toList.length = 4 := rfl

@[simp] theorem Block.toList_length (x : Block) : x.toList.length = 16 := rfl

@[simp] theorem Bytes32.toList_length (x : Bytes32) : x.toList.length = 32 := rfl

/-- The halves of a 32-byte string, in order, are the string (41_kdf.md R82). -/
theorem Bytes32.left_append_right (x : Bytes32) : x.left.toList ++ x.right.toList = x.toList := rfl

end Sys2Proof
end

