-- ==== Sys2Proof/Laws/State.lean ====
section
/-! SUPPORT. One lemma per field and named update of State, so that no later proof unfolds a record update. -/

namespace Sys2Proof.Machine

/-! Dropping (43_control.md R101). -/

@[simp] theorem State.dropWrite_params (s : State) : (s.dropWrite).params = s.params := rfl
@[simp] theorem State.dropWrite_irqEn (s : State) : (s.dropWrite).irqEn = s.irqEn := rfl
@[simp] theorem State.dropWrite_done (s : State) : (s.dropWrite).done = s.done := rfl
@[simp] theorem State.dropWrite_drop (s : State) : (s.dropWrite).drop = true := rfl
@[simp] theorem State.dropWrite_phase (s : State) : (s.dropWrite).phase = s.phase := rfl
@[simp] theorem State.dropWrite_cipher (s : State) : (s.dropWrite).cipher = s.cipher := rfl
@[simp] theorem State.dropWrite_errCode (s : State) : (s.dropWrite).errCode = s.errCode := rfl
@[simp] theorem State.dropWrite_errInfo0 (s : State) : (s.dropWrite).errInfo0 = s.errInfo0 := rfl
@[simp] theorem State.dropWrite_errInfo1 (s : State) : (s.dropWrite).errInfo1 = s.errInfo1 := rfl
@[simp] theorem State.dropWrite_fileLen (s : State) : (s.dropWrite).fileLen = s.fileLen := rfl
@[simp] theorem State.dropWrite_passLen (s : State) : (s.dropWrite).passLen = s.passLen := rfl
@[simp] theorem State.dropWrite_kdfCount (s : State) : (s.dropWrite).kdfCount = s.kdfCount := rfl
@[simp] theorem State.dropWrite_blocksLeft (s : State) : (s.dropWrite).blocksLeft = s.blocksLeft := rfl
@[simp] theorem State.dropWrite_din (s : State) : (s.dropWrite).din = s.din := rfl
@[simp] theorem State.dropWrite_dout (s : State) : (s.dropWrite).dout = s.dout := rfl
@[simp] theorem State.dropWrite_chain (s : State) : (s.dropWrite).chain = s.chain := rfl
@[simp] theorem State.dropWrite_key (s : State) : (s.dropWrite).key = s.key := rfl
@[simp] theorem State.dropWrite_mem (s : State) : (s.dropWrite).mem = s.mem := rfl
@[simp] theorem State.dropWrite_op (s : State) : (s.dropWrite).op = s.op := rfl
@[simp] theorem State.dropWrite_kstep (s : State) : (s.dropWrite).kstep = s.kstep := rfl
@[simp] theorem State.dropWrite_lblk (s : State) : (s.dropWrite).lblk = s.lblk := rfl
@[simp] theorem State.dropWrite_rblk (s : State) : (s.dropWrite).rblk = s.rblk := rfl
@[simp] theorem State.dropWrite_rst (s : State) : (s.dropWrite).rst = s.rst := rfl
@[simp] theorem State.dropWrite_clk (s : State) : (s.dropWrite).clk = s.clk := rfl
@[simp] theorem State.dropWrite_powerLost (s : State) : (s.dropWrite).powerLost = s.powerLost := rfl
@[simp] theorem State.dropWrite_sched (s : State) : (s.dropWrite).sched = s.sched := rfl
@[simp] theorem State.dropWrite_agent (s : State) : (s.dropWrite).agent = s.agent := rfl
@[simp] theorem State.dropWrite_resp (s : State) : (s.dropWrite).resp = s.resp := rfl

/-! Error entry (60_exceptions.md R125). -/

@[simp] theorem State.raise_params (s : State) (e : ErrCode) (i0 i1 : Word) : (s.raise e i0 i1).params = s.params := rfl
@[simp] theorem State.raise_irqEn (s : State) (e : ErrCode) (i0 i1 : Word) : (s.raise e i0 i1).irqEn = s.irqEn := rfl
@[simp] theorem State.raise_done (s : State) (e : ErrCode) (i0 i1 : Word) : (s.raise e i0 i1).done = true := rfl
@[simp] theorem State.raise_drop (s : State) (e : ErrCode) (i0 i1 : Word) : (s.raise e i0 i1).drop = s.drop := rfl
@[simp] theorem State.raise_phase (s : State) (e : ErrCode) (i0 i1 : Word) : (s.raise e i0 i1).phase = .error := rfl
@[simp] theorem State.raise_cipher (s : State) (e : ErrCode) (i0 i1 : Word) : (s.raise e i0 i1).cipher = s.cipher := rfl
@[simp] theorem State.raise_errCode (s : State) (e : ErrCode) (i0 i1 : Word) : (s.raise e i0 i1).errCode = e := rfl
@[simp] theorem State.raise_errInfo0 (s : State) (e : ErrCode) (i0 i1 : Word) : (s.raise e i0 i1).errInfo0 = i0 := rfl
@[simp] theorem State.raise_errInfo1 (s : State) (e : ErrCode) (i0 i1 : Word) : (s.raise e i0 i1).errInfo1 = i1 := rfl
@[simp] theorem State.raise_fileLen (s : State) (e : ErrCode) (i0 i1 : Word) : (s.raise e i0 i1).fileLen = s.fileLen := rfl
@[simp] theorem State.raise_passLen (s : State) (e : ErrCode) (i0 i1 : Word) : (s.raise e i0 i1).passLen = s.passLen := rfl
@[simp] theorem State.raise_kdfCount (s : State) (e : ErrCode) (i0 i1 : Word) : (s.raise e i0 i1).kdfCount = s.kdfCount := rfl
@[simp] theorem State.raise_blocksLeft (s : State) (e : ErrCode) (i0 i1 : Word) : (s.raise e i0 i1).blocksLeft = 0#32 := rfl
@[simp] theorem State.raise_din (s : State) (e : ErrCode) (i0 i1 : Word) : (s.raise e i0 i1).din = s.din := rfl
@[simp] theorem State.raise_dout (s : State) (e : ErrCode) (i0 i1 : Word) : (s.raise e i0 i1).dout = Words4.zero := rfl
@[simp] theorem State.raise_chain (s : State) (e : ErrCode) (i0 i1 : Word) : (s.raise e i0 i1).chain = Words4.zero := rfl
@[simp] theorem State.raise_key (s : State) (e : ErrCode) (i0 i1 : Word) : (s.raise e i0 i1).key = Words8.zero := rfl
@[simp] theorem State.raise_mem (s : State) (e : ErrCode) (i0 i1 : Word) : (s.raise e i0 i1).mem = s.mem := rfl
@[simp] theorem State.raise_op (s : State) (e : ErrCode) (i0 i1 : Word) : (s.raise e i0 i1).op = .none := rfl
@[simp] theorem State.raise_kstep (s : State) (e : ErrCode) (i0 i1 : Word) : (s.raise e i0 i1).kstep = .start := rfl
@[simp] theorem State.raise_lblk (s : State) (e : ErrCode) (i0 i1 : Word) : (s.raise e i0 i1).lblk = Block.zero := rfl
@[simp] theorem State.raise_rblk (s : State) (e : ErrCode) (i0 i1 : Word) : (s.raise e i0 i1).rblk = Block.zero := rfl
@[simp] theorem State.raise_rst (s : State) (e : ErrCode) (i0 i1 : Word) : (s.raise e i0 i1).rst = s.rst := rfl
@[simp] theorem State.raise_clk (s : State) (e : ErrCode) (i0 i1 : Word) : (s.raise e i0 i1).clk = s.clk := rfl
@[simp] theorem State.raise_powerLost (s : State) (e : ErrCode) (i0 i1 : Word) : (s.raise e i0 i1).powerLost = s.powerLost := rfl
@[simp] theorem State.raise_sched (s : State) (e : ErrCode) (i0 i1 : Word) : (s.raise e i0 i1).sched = s.sched := rfl
@[simp] theorem State.raise_agent (s : State) (e : ErrCode) (i0 i1 : Word) : (s.raise e i0 i1).agent = s.agent := rfl
@[simp] theorem State.raise_resp (s : State) (e : ErrCode) (i0 i1 : Word) : (s.raise e i0 i1).resp = s.resp := rfl

/-! CLEAR (43_control.md R103). -/

@[simp] theorem State.clearSession_params (s : State) : (s.clearSession).params = s.params := rfl
@[simp] theorem State.clearSession_irqEn (s : State) : (s.clearSession).irqEn = s.irqEn := rfl
@[simp] theorem State.clearSession_done (s : State) : (s.clearSession).done = false := rfl
@[simp] theorem State.clearSession_drop (s : State) : (s.clearSession).drop = false := rfl
@[simp] theorem State.clearSession_phase (s : State) : (s.clearSession).phase = .empty := rfl
@[simp] theorem State.clearSession_cipher (s : State) : (s.clearSession).cipher = .none := rfl
@[simp] theorem State.clearSession_errCode (s : State) : (s.clearSession).errCode = .none := rfl
@[simp] theorem State.clearSession_errInfo0 (s : State) : (s.clearSession).errInfo0 = 0#32 := rfl
@[simp] theorem State.clearSession_errInfo1 (s : State) : (s.clearSession).errInfo1 = 0#32 := rfl
@[simp] theorem State.clearSession_fileLen (s : State) : (s.clearSession).fileLen = 0#32 := rfl
@[simp] theorem State.clearSession_passLen (s : State) : (s.clearSession).passLen = 0#32 := rfl
@[simp] theorem State.clearSession_kdfCount (s : State) : (s.clearSession).kdfCount = 0#32 := rfl
@[simp] theorem State.clearSession_blocksLeft (s : State) : (s.clearSession).blocksLeft = 0#32 := rfl
@[simp] theorem State.clearSession_din (s : State) : (s.clearSession).din = Words4.zero := rfl
@[simp] theorem State.clearSession_dout (s : State) : (s.clearSession).dout = Words4.zero := rfl
@[simp] theorem State.clearSession_chain (s : State) : (s.clearSession).chain = Words4.zero := rfl
@[simp] theorem State.clearSession_key (s : State) : (s.clearSession).key = Words8.zero := rfl
@[simp] theorem State.clearSession_mem (s : State) : (s.clearSession).mem = [] := rfl
@[simp] theorem State.clearSession_op (s : State) : (s.clearSession).op = .none := rfl
@[simp] theorem State.clearSession_kstep (s : State) : (s.clearSession).kstep = .start := rfl
@[simp] theorem State.clearSession_lblk (s : State) : (s.clearSession).lblk = Block.zero := rfl
@[simp] theorem State.clearSession_rblk (s : State) : (s.clearSession).rblk = Block.zero := rfl
@[simp] theorem State.clearSession_rst (s : State) : (s.clearSession).rst = s.rst := rfl
@[simp] theorem State.clearSession_clk (s : State) : (s.clearSession).clk = s.clk := rfl
@[simp] theorem State.clearSession_powerLost (s : State) : (s.clearSession).powerLost = s.powerLost := rfl
@[simp] theorem State.clearSession_sched (s : State) : (s.clearSession).sched = s.sched := rfl
@[simp] theorem State.clearSession_agent (s : State) : (s.clearSession).agent = s.agent := rfl
@[simp] theorem State.clearSession_resp (s : State) : (s.clearSession).resp = s.resp := rfl

/-! Reset (70_reset_and_hazards.md R139). -/

@[simp] theorem State.resetBlock_params (s : State) : (s.resetBlock).params = s.params := rfl
@[simp] theorem State.resetBlock_irqEn (s : State) : (s.resetBlock).irqEn = false := rfl
@[simp] theorem State.resetBlock_done (s : State) : (s.resetBlock).done = false := rfl
@[simp] theorem State.resetBlock_drop (s : State) : (s.resetBlock).drop = false := rfl
@[simp] theorem State.resetBlock_phase (s : State) : (s.resetBlock).phase = .empty := rfl
@[simp] theorem State.resetBlock_cipher (s : State) : (s.resetBlock).cipher = .none := rfl
@[simp] theorem State.resetBlock_errCode (s : State) : (s.resetBlock).errCode = .none := rfl
@[simp] theorem State.resetBlock_errInfo0 (s : State) : (s.resetBlock).errInfo0 = 0#32 := rfl
@[simp] theorem State.resetBlock_errInfo1 (s : State) : (s.resetBlock).errInfo1 = 0#32 := rfl
@[simp] theorem State.resetBlock_fileLen (s : State) : (s.resetBlock).fileLen = 0#32 := rfl
@[simp] theorem State.resetBlock_passLen (s : State) : (s.resetBlock).passLen = 0#32 := rfl
@[simp] theorem State.resetBlock_kdfCount (s : State) : (s.resetBlock).kdfCount = 0#32 := rfl
@[simp] theorem State.resetBlock_blocksLeft (s : State) : (s.resetBlock).blocksLeft = 0#32 := rfl
@[simp] theorem State.resetBlock_din (s : State) : (s.resetBlock).din = Words4.zero := rfl
@[simp] theorem State.resetBlock_dout (s : State) : (s.resetBlock).dout = Words4.zero := rfl
@[simp] theorem State.resetBlock_chain (s : State) : (s.resetBlock).chain = Words4.zero := rfl
@[simp] theorem State.resetBlock_key (s : State) : (s.resetBlock).key = Words8.zero := rfl
@[simp] theorem State.resetBlock_mem (s : State) : (s.resetBlock).mem = [] := rfl
@[simp] theorem State.resetBlock_op (s : State) : (s.resetBlock).op = .none := rfl
@[simp] theorem State.resetBlock_kstep (s : State) : (s.resetBlock).kstep = .start := rfl
@[simp] theorem State.resetBlock_lblk (s : State) : (s.resetBlock).lblk = Block.zero := rfl
@[simp] theorem State.resetBlock_rblk (s : State) : (s.resetBlock).rblk = Block.zero := rfl
@[simp] theorem State.resetBlock_rst (s : State) : (s.resetBlock).rst = s.rst := rfl
@[simp] theorem State.resetBlock_clk (s : State) : (s.resetBlock).clk = s.clk := rfl
@[simp] theorem State.resetBlock_powerLost (s : State) : (s.resetBlock).powerLost = s.powerLost := rfl
@[simp] theorem State.resetBlock_sched (s : State) : (s.resetBlock).sched = s.sched := rfl
@[simp] theorem State.resetBlock_agent (s : State) : (s.resetBlock).agent = s.agent := rfl
@[simp] theorem State.resetBlock_resp (s : State) : (s.resetBlock).resp = s.resp := rfl

/-! Acceptance (43_control.md R100). -/

@[simp] theorem State.accept_params (s : State) (i : Instr) : (s.accept i).params = s.params := rfl
@[simp] theorem State.accept_irqEn (s : State) (i : Instr) : (s.accept i).irqEn = s.irqEn := rfl
@[simp] theorem State.accept_done (s : State) (i : Instr) : (s.accept i).done = false := rfl
@[simp] theorem State.accept_drop (s : State) (i : Instr) : (s.accept i).drop = s.drop := rfl
@[simp] theorem State.accept_phase (s : State) (i : Instr) : (s.accept i).phase = s.phase := rfl
@[simp] theorem State.accept_cipher (s : State) (i : Instr) : (s.accept i).cipher = s.cipher := rfl
@[simp] theorem State.accept_errCode (s : State) (i : Instr) : (s.accept i).errCode = s.errCode := rfl
@[simp] theorem State.accept_errInfo0 (s : State) (i : Instr) : (s.accept i).errInfo0 = s.errInfo0 := rfl
@[simp] theorem State.accept_errInfo1 (s : State) (i : Instr) : (s.accept i).errInfo1 = s.errInfo1 := rfl
@[simp] theorem State.accept_fileLen (s : State) (i : Instr) : (s.accept i).fileLen = s.fileLen := rfl
@[simp] theorem State.accept_passLen (s : State) (i : Instr) : (s.accept i).passLen = s.passLen := rfl
@[simp] theorem State.accept_kdfCount (s : State) (i : Instr) : (s.accept i).kdfCount = s.kdfCount := rfl
@[simp] theorem State.accept_blocksLeft (s : State) (i : Instr) : (s.accept i).blocksLeft = s.blocksLeft := rfl
@[simp] theorem State.accept_din (s : State) (i : Instr) : (s.accept i).din = s.din := rfl
@[simp] theorem State.accept_dout (s : State) (i : Instr) : (s.accept i).dout = s.dout := rfl
@[simp] theorem State.accept_chain (s : State) (i : Instr) : (s.accept i).chain = s.chain := rfl
@[simp] theorem State.accept_key (s : State) (i : Instr) : (s.accept i).key = s.key := rfl
@[simp] theorem State.accept_mem (s : State) (i : Instr) : (s.accept i).mem = s.mem := rfl
@[simp] theorem State.accept_op (s : State) (i : Instr) : (s.accept i).op = Op.ofInstr i := rfl
@[simp] theorem State.accept_kstep (s : State) (i : Instr) : (s.accept i).kstep = if i = .deriveKey then .start else s.kstep := rfl
@[simp] theorem State.accept_lblk (s : State) (i : Instr) : (s.accept i).lblk = s.lblk := rfl
@[simp] theorem State.accept_rblk (s : State) (i : Instr) : (s.accept i).rblk = s.rblk := rfl
@[simp] theorem State.accept_rst (s : State) (i : Instr) : (s.accept i).rst = s.rst := rfl
@[simp] theorem State.accept_clk (s : State) (i : Instr) : (s.accept i).clk = s.clk := rfl
@[simp] theorem State.accept_powerLost (s : State) (i : Instr) : (s.accept i).powerLost = s.powerLost := rfl
@[simp] theorem State.accept_sched (s : State) (i : Instr) : (s.accept i).sched = s.sched := rfl
@[simp] theorem State.accept_agent (s : State) (i : Instr) : (s.accept i).agent = s.agent := rfl
@[simp] theorem State.accept_resp (s : State) (i : Instr) : (s.accept i).resp = s.resp := rfl

/-! Completion (43_control.md R102). -/

@[simp] theorem State.complete_params (s : State) : (s.complete).params = s.params := rfl
@[simp] theorem State.complete_irqEn (s : State) : (s.complete).irqEn = s.irqEn := rfl
@[simp] theorem State.complete_done (s : State) : (s.complete).done = true := rfl
@[simp] theorem State.complete_drop (s : State) : (s.complete).drop = s.drop := rfl
@[simp] theorem State.complete_phase (s : State) : (s.complete).phase = s.phase := rfl
@[simp] theorem State.complete_cipher (s : State) : (s.complete).cipher = s.cipher := rfl
@[simp] theorem State.complete_errCode (s : State) : (s.complete).errCode = s.errCode := rfl
@[simp] theorem State.complete_errInfo0 (s : State) : (s.complete).errInfo0 = s.errInfo0 := rfl
@[simp] theorem State.complete_errInfo1 (s : State) : (s.complete).errInfo1 = s.errInfo1 := rfl
@[simp] theorem State.complete_fileLen (s : State) : (s.complete).fileLen = s.fileLen := rfl
@[simp] theorem State.complete_passLen (s : State) : (s.complete).passLen = s.passLen := rfl
@[simp] theorem State.complete_kdfCount (s : State) : (s.complete).kdfCount = s.kdfCount := rfl
@[simp] theorem State.complete_blocksLeft (s : State) : (s.complete).blocksLeft = s.blocksLeft := rfl
@[simp] theorem State.complete_din (s : State) : (s.complete).din = s.din := rfl
@[simp] theorem State.complete_dout (s : State) : (s.complete).dout = s.dout := rfl
@[simp] theorem State.complete_chain (s : State) : (s.complete).chain = s.chain := rfl
@[simp] theorem State.complete_key (s : State) : (s.complete).key = s.key := rfl
@[simp] theorem State.complete_mem (s : State) : (s.complete).mem = s.mem := rfl
@[simp] theorem State.complete_op (s : State) : (s.complete).op = .none := rfl
@[simp] theorem State.complete_kstep (s : State) : (s.complete).kstep = s.kstep := rfl
@[simp] theorem State.complete_lblk (s : State) : (s.complete).lblk = s.lblk := rfl
@[simp] theorem State.complete_rblk (s : State) : (s.complete).rblk = s.rblk := rfl
@[simp] theorem State.complete_rst (s : State) : (s.complete).rst = s.rst := rfl
@[simp] theorem State.complete_clk (s : State) : (s.complete).clk = s.clk := rfl
@[simp] theorem State.complete_powerLost (s : State) : (s.complete).powerLost = s.powerLost := rfl
@[simp] theorem State.complete_sched (s : State) : (s.complete).sched = s.sched := rfl
@[simp] theorem State.complete_agent (s : State) : (s.complete).agent = s.agent := rfl
@[simp] theorem State.complete_resp (s : State) : (s.complete).resp = s.resp := rfl

/-! A write to STATUS (20_memory.md R47). -/

@[simp] theorem State.writeStatus_params (s : State) (v : Word) : (s.writeStatus v).params = s.params := rfl
@[simp] theorem State.writeStatus_irqEn (s : State) (v : Word) : (s.writeStatus v).irqEn = s.irqEn := rfl
@[simp] theorem State.writeStatus_done (s : State) (v : Word) : (s.writeStatus v).done = (s.done && !v.getLsbD 1) := rfl
@[simp] theorem State.writeStatus_drop (s : State) (v : Word) : (s.writeStatus v).drop = (s.drop && !v.getLsbD 2) := rfl
@[simp] theorem State.writeStatus_phase (s : State) (v : Word) : (s.writeStatus v).phase = s.phase := rfl
@[simp] theorem State.writeStatus_cipher (s : State) (v : Word) : (s.writeStatus v).cipher = s.cipher := rfl
@[simp] theorem State.writeStatus_errCode (s : State) (v : Word) : (s.writeStatus v).errCode = s.errCode := rfl
@[simp] theorem State.writeStatus_errInfo0 (s : State) (v : Word) : (s.writeStatus v).errInfo0 = s.errInfo0 := rfl
@[simp] theorem State.writeStatus_errInfo1 (s : State) (v : Word) : (s.writeStatus v).errInfo1 = s.errInfo1 := rfl
@[simp] theorem State.writeStatus_fileLen (s : State) (v : Word) : (s.writeStatus v).fileLen = s.fileLen := rfl
@[simp] theorem State.writeStatus_passLen (s : State) (v : Word) : (s.writeStatus v).passLen = s.passLen := rfl
@[simp] theorem State.writeStatus_kdfCount (s : State) (v : Word) : (s.writeStatus v).kdfCount = s.kdfCount := rfl
@[simp] theorem State.writeStatus_blocksLeft (s : State) (v : Word) : (s.writeStatus v).blocksLeft = s.blocksLeft := rfl
@[simp] theorem State.writeStatus_din (s : State) (v : Word) : (s.writeStatus v).din = s.din := rfl
@[simp] theorem State.writeStatus_dout (s : State) (v : Word) : (s.writeStatus v).dout = s.dout := rfl
@[simp] theorem State.writeStatus_chain (s : State) (v : Word) : (s.writeStatus v).chain = s.chain := rfl
@[simp] theorem State.writeStatus_key (s : State) (v : Word) : (s.writeStatus v).key = s.key := rfl
@[simp] theorem State.writeStatus_mem (s : State) (v : Word) : (s.writeStatus v).mem = s.mem := rfl
@[simp] theorem State.writeStatus_op (s : State) (v : Word) : (s.writeStatus v).op = s.op := rfl
@[simp] theorem State.writeStatus_kstep (s : State) (v : Word) : (s.writeStatus v).kstep = s.kstep := rfl
@[simp] theorem State.writeStatus_lblk (s : State) (v : Word) : (s.writeStatus v).lblk = s.lblk := rfl
@[simp] theorem State.writeStatus_rblk (s : State) (v : Word) : (s.writeStatus v).rblk = s.rblk := rfl
@[simp] theorem State.writeStatus_rst (s : State) (v : Word) : (s.writeStatus v).rst = s.rst := rfl
@[simp] theorem State.writeStatus_clk (s : State) (v : Word) : (s.writeStatus v).clk = s.clk := rfl
@[simp] theorem State.writeStatus_powerLost (s : State) (v : Word) : (s.writeStatus v).powerLost = s.powerLost := rfl
@[simp] theorem State.writeStatus_sched (s : State) (v : Word) : (s.writeStatus v).sched = s.sched := rfl
@[simp] theorem State.writeStatus_agent (s : State) (v : Word) : (s.writeStatus v).agent = s.agent := rfl
@[simp] theorem State.writeStatus_resp (s : State) (v : Word) : (s.writeStatus v).resp = s.resp := rfl

/-! A write to CTRL (20_memory.md R47). -/

@[simp] theorem State.writeCtrl_params (s : State) (v : Word) : (s.writeCtrl v).params = s.params := rfl
@[simp] theorem State.writeCtrl_irqEn (s : State) (v : Word) : (s.writeCtrl v).irqEn = v.getLsbD 0 := rfl
@[simp] theorem State.writeCtrl_done (s : State) (v : Word) : (s.writeCtrl v).done = s.done := rfl
@[simp] theorem State.writeCtrl_drop (s : State) (v : Word) : (s.writeCtrl v).drop = s.drop := rfl
@[simp] theorem State.writeCtrl_phase (s : State) (v : Word) : (s.writeCtrl v).phase = s.phase := rfl
@[simp] theorem State.writeCtrl_cipher (s : State) (v : Word) : (s.writeCtrl v).cipher = s.cipher := rfl
@[simp] theorem State.writeCtrl_errCode (s : State) (v : Word) : (s.writeCtrl v).errCode = s.errCode := rfl
@[simp] theorem State.writeCtrl_errInfo0 (s : State) (v : Word) : (s.writeCtrl v).errInfo0 = s.errInfo0 := rfl
@[simp] theorem State.writeCtrl_errInfo1 (s : State) (v : Word) : (s.writeCtrl v).errInfo1 = s.errInfo1 := rfl
@[simp] theorem State.writeCtrl_fileLen (s : State) (v : Word) : (s.writeCtrl v).fileLen = s.fileLen := rfl
@[simp] theorem State.writeCtrl_passLen (s : State) (v : Word) : (s.writeCtrl v).passLen = s.passLen := rfl
@[simp] theorem State.writeCtrl_kdfCount (s : State) (v : Word) : (s.writeCtrl v).kdfCount = s.kdfCount := rfl
@[simp] theorem State.writeCtrl_blocksLeft (s : State) (v : Word) : (s.writeCtrl v).blocksLeft = s.blocksLeft := rfl
@[simp] theorem State.writeCtrl_din (s : State) (v : Word) : (s.writeCtrl v).din = s.din := rfl
@[simp] theorem State.writeCtrl_dout (s : State) (v : Word) : (s.writeCtrl v).dout = s.dout := rfl
@[simp] theorem State.writeCtrl_chain (s : State) (v : Word) : (s.writeCtrl v).chain = s.chain := rfl
@[simp] theorem State.writeCtrl_key (s : State) (v : Word) : (s.writeCtrl v).key = s.key := rfl
@[simp] theorem State.writeCtrl_mem (s : State) (v : Word) : (s.writeCtrl v).mem = s.mem := rfl
@[simp] theorem State.writeCtrl_op (s : State) (v : Word) : (s.writeCtrl v).op = s.op := rfl
@[simp] theorem State.writeCtrl_kstep (s : State) (v : Word) : (s.writeCtrl v).kstep = s.kstep := rfl
@[simp] theorem State.writeCtrl_lblk (s : State) (v : Word) : (s.writeCtrl v).lblk = s.lblk := rfl
@[simp] theorem State.writeCtrl_rblk (s : State) (v : Word) : (s.writeCtrl v).rblk = s.rblk := rfl
@[simp] theorem State.writeCtrl_rst (s : State) (v : Word) : (s.writeCtrl v).rst = s.rst := rfl
@[simp] theorem State.writeCtrl_clk (s : State) (v : Word) : (s.writeCtrl v).clk = s.clk := rfl
@[simp] theorem State.writeCtrl_powerLost (s : State) (v : Word) : (s.writeCtrl v).powerLost = s.powerLost := rfl
@[simp] theorem State.writeCtrl_sched (s : State) (v : Word) : (s.writeCtrl v).sched = s.sched := rfl
@[simp] theorem State.writeCtrl_agent (s : State) (v : Word) : (s.writeCtrl v).agent = s.agent := rfl
@[simp] theorem State.writeCtrl_resp (s : State) (v : Word) : (s.writeCtrl v).resp = s.resp := rfl

/-! The port's answer (00_scope.md R7). -/

@[simp] theorem State.answer_params (s : State) (ok : Bool) (data : Word) : (s.answer ok data).params = s.params := rfl
@[simp] theorem State.answer_irqEn (s : State) (ok : Bool) (data : Word) : (s.answer ok data).irqEn = s.irqEn := rfl
@[simp] theorem State.answer_done (s : State) (ok : Bool) (data : Word) : (s.answer ok data).done = s.done := rfl
@[simp] theorem State.answer_drop (s : State) (ok : Bool) (data : Word) : (s.answer ok data).drop = s.drop := rfl
@[simp] theorem State.answer_phase (s : State) (ok : Bool) (data : Word) : (s.answer ok data).phase = s.phase := rfl
@[simp] theorem State.answer_cipher (s : State) (ok : Bool) (data : Word) : (s.answer ok data).cipher = s.cipher := rfl
@[simp] theorem State.answer_errCode (s : State) (ok : Bool) (data : Word) : (s.answer ok data).errCode = s.errCode := rfl
@[simp] theorem State.answer_errInfo0 (s : State) (ok : Bool) (data : Word) : (s.answer ok data).errInfo0 = s.errInfo0 := rfl
@[simp] theorem State.answer_errInfo1 (s : State) (ok : Bool) (data : Word) : (s.answer ok data).errInfo1 = s.errInfo1 := rfl
@[simp] theorem State.answer_fileLen (s : State) (ok : Bool) (data : Word) : (s.answer ok data).fileLen = s.fileLen := rfl
@[simp] theorem State.answer_passLen (s : State) (ok : Bool) (data : Word) : (s.answer ok data).passLen = s.passLen := rfl
@[simp] theorem State.answer_kdfCount (s : State) (ok : Bool) (data : Word) : (s.answer ok data).kdfCount = s.kdfCount := rfl
@[simp] theorem State.answer_blocksLeft (s : State) (ok : Bool) (data : Word) : (s.answer ok data).blocksLeft = s.blocksLeft := rfl
@[simp] theorem State.answer_din (s : State) (ok : Bool) (data : Word) : (s.answer ok data).din = s.din := rfl
@[simp] theorem State.answer_dout (s : State) (ok : Bool) (data : Word) : (s.answer ok data).dout = s.dout := rfl
@[simp] theorem State.answer_chain (s : State) (ok : Bool) (data : Word) : (s.answer ok data).chain = s.chain := rfl
@[simp] theorem State.answer_key (s : State) (ok : Bool) (data : Word) : (s.answer ok data).key = s.key := rfl
@[simp] theorem State.answer_mem (s : State) (ok : Bool) (data : Word) : (s.answer ok data).mem = s.mem := rfl
@[simp] theorem State.answer_op (s : State) (ok : Bool) (data : Word) : (s.answer ok data).op = s.op := rfl
@[simp] theorem State.answer_kstep (s : State) (ok : Bool) (data : Word) : (s.answer ok data).kstep = s.kstep := rfl
@[simp] theorem State.answer_lblk (s : State) (ok : Bool) (data : Word) : (s.answer ok data).lblk = s.lblk := rfl
@[simp] theorem State.answer_rblk (s : State) (ok : Bool) (data : Word) : (s.answer ok data).rblk = s.rblk := rfl
@[simp] theorem State.answer_rst (s : State) (ok : Bool) (data : Word) : (s.answer ok data).rst = s.rst := rfl
@[simp] theorem State.answer_clk (s : State) (ok : Bool) (data : Word) : (s.answer ok data).clk = s.clk := rfl
@[simp] theorem State.answer_powerLost (s : State) (ok : Bool) (data : Word) : (s.answer ok data).powerLost = s.powerLost := rfl
@[simp] theorem State.answer_sched (s : State) (ok : Bool) (data : Word) : (s.answer ok data).sched = s.sched := rfl
@[simp] theorem State.answer_agent (s : State) (ok : Bool) (data : Word) : (s.answer ok data).agent = s.agent := rfl
@[simp] theorem State.answer_resp (s : State) (ok : Bool) (data : Word) : (s.answer ok data).resp = some ⟨ok, data⟩ := rfl

end Sys2Proof.Machine
end

