-- ==== Sys2Proof/Laws/Ops.lean ====
section
/-! SUPPORT. What each shared operation and each meaning can do, said once: a lemma per operation with a case per branch. -/

namespace Sys2Proof.Machine

/-- The request of a command other than CLEAR drops, accepts or raises SequenceError (43_control.md R100). -/
theorem State.request_cases (s : State) (i : Instr) :
    (s.dropsRequest = true ∧ s.request i = s.dropWrite) ∨
    (s.dropsRequest = false ∧ s.legal i = true ∧ s.request i = s.accept i) ∨
    (s.dropsRequest = false ∧ s.legal i = false ∧
      s.request i = s.raise .sequenceError (encode i) s.phaseWord) := by
  unfold State.request
  cases s.dropsRequest <;> cases s.legal i <;> simp

/-- The request of an illegal word drops or raises IllegalCommand (43_control.md R100, R104). -/
theorem State.illegalRequest_cases (s : State) (w : Word) :
    (s.dropsRequest = true ∧ s.illegalRequest w = s.dropWrite) ∨
    (s.dropsRequest = false ∧ s.illegalRequest w = s.raise .illegalCommand w 0#32) := by
  unfold State.illegalRequest
  cases s.dropsRequest <;> simp

/-- A request is taken up exactly when no command runs and the phase is not ERROR (43_control.md R100). -/
theorem State.dropsRequest_eq_false (s : State) : s.dropsRequest = false ↔ s.op = .none ∧ s.phase ≠ .error := by
  simp [State.dropsRequest, State.busy]

theorem State.dropsRequest_eq_true (s : State) : s.dropsRequest = true ↔ s.op ≠ .none ∨ s.phase = .error := by
  simp [State.dropsRequest, State.busy]

theorem State.busy_eq_true (s : State) : s.busy = true ↔ s.op ≠ .none := by simp [State.busy]

theorem State.busy_eq_false (s : State) : s.busy = false ↔ s.op = .none := by simp [State.busy]

theorem State.engineRuns_iff (s : State) (o : Op) : s.engineRuns o = true ↔ s.agent = .engine ∧ s.op = o := by
  simp [State.engineRuns]

/-- The engine step of PARSE_HEADER raises one of four errors or selects a cipher (40_header.md R77). -/
theorem parseStep_cases (s : State) :
    (s.fileLen < headerBytes ∧ parseStep s = s.raise .malformedHeader s.fileLen 0#32) ∨
    (headerBytes ≤ s.fileLen ∧ (s.hdrSig1 ≠ s.params.sig1 ∨ s.hdrSig2 ≠ s.params.sig2) ∧
      parseStep s = s.raise .badSignature s.hdrSig1 s.hdrSig2) ∨
    (headerBytes ≤ s.fileLen ∧ s.hdrSig1 = s.params.sig1 ∧ s.hdrSig2 = s.params.sig2 ∧
      versionMajor s.hdrVersion < 3#16 ∧ parseStep s = s.raise .unsupportedVersion s.hdrVersion 0#32) ∨
    (headerBytes ≤ s.fileLen ∧ s.hdrSig1 = s.params.sig1 ∧ s.hdrSig2 = s.params.sig2 ∧
      3#16 ≤ versionMajor s.hdrVersion ∧ selectCipher s.params.bothCiphers s.hdrFlags = .none ∧
      parseStep s = s.raise .unknownCipher s.hdrFlags 0#32) ∨
    (∃ c, headerBytes ≤ s.fileLen ∧ s.hdrSig1 = s.params.sig1 ∧ s.hdrSig2 = s.params.sig2 ∧
      3#16 ≤ versionMajor s.hdrVersion ∧ selectCipher s.params.bothCiphers s.hdrFlags = c ∧ c ≠ .none ∧
      parseStep s = { s with cipher := c, phase := .header }.complete) := by
  unfold parseStep
  split
  · exact .inl ⟨‹_›, rfl⟩
  rename_i h1
  have h1' : headerBytes ≤ s.fileLen := BitVec.not_lt.1 h1
  split
  · exact .inr (.inl ⟨h1', ‹_›, rfl⟩)
  rename_i h2
  push Not at h2
  split
  · exact .inr (.inr (.inl ⟨h1', h2.1, h2.2, ‹_›, rfl⟩))
  rename_i h3
  have h3' : 3#16 ≤ versionMajor s.hdrVersion := BitVec.not_lt.1 h3
  split
  · exact .inr (.inr (.inr (.inl ⟨h1', h2.1, h2.2, h3', ‹_›, rfl⟩)))
  · rename_i hc
    exact .inr (.inr (.inr (.inr ⟨_, h1', h2.1, h2.2, h3', rfl, hc, rfl⟩)))

/-- The start step of DERIVE_KEY raises one of two errors or hashes the passphrase (41_kdf.md R84). -/
theorem deriveStart_cases (s : State) :
    (s.params.passMax < s.passLen ∧ deriveStart s = s.raise .passphraseTooLong s.passLen s.params.passMax) ∨
    (s.passLen ≤ s.params.passMax ∧ s.params.maxRounds < s.hdrRounds ∧
      deriveStart s = s.raise .keyDerivationTooExpensive s.hdrRounds s.params.maxRounds) ∨
    (s.passLen ≤ s.params.passMax ∧ s.hdrRounds ≤ s.params.maxRounds ∧
      deriveStart s =
        { s with
          lblk := (sha256 (s.passBytes s.passLen.toNat)).left,
          rblk := (sha256 (s.passBytes s.passLen.toNat)).right,
          kdfCount := 0#32, kstep := .stretch }) := by
  unfold deriveStart
  split
  · exact .inl ⟨‹_›, rfl⟩
  rename_i h1
  split
  · exact .inr (.inl ⟨BitVec.not_lt.1 h1, ‹_›, rfl⟩)
  · rename_i h2
    exact .inr (.inr ⟨BitVec.not_lt.1 h1, BitVec.not_lt.1 h2, rfl⟩)

/-- Which step of DERIVE_KEY is the enabled one (43_control.md R102). -/
theorem deriveStep_cases (s : State) :
    (s.kstep = .start ∧ deriveStep s = deriveStart s) ∨
    (s.kstep = .stretch ∧ s.kdfCount < s.hdrRounds ∧ deriveStep s = deriveRound s) ∨
    (s.kstep = .stretch ∧ s.kdfCount = s.hdrRounds ∧ deriveStep s = deriveFinish s) ∨
    (s.kstep = .stretch ∧ s.hdrRounds < s.kdfCount ∧ deriveStep s = s) := by
  unfold deriveStep
  split
  · exact .inl ⟨‹_›, rfl⟩
  · split
    · exact .inr (.inl ⟨‹_›, ‹_›, rfl⟩)
    · rename_i h1
      split
      · exact .inr (.inr (.inl ⟨‹_›, ‹_›, rfl⟩))
      · rename_i h2
        refine .inr (.inr (.inr ⟨‹_›, ?_, rfl⟩))
        have := BitVec.not_lt.1 h1
        rw [BitVec.lt_def]
        rw [BitVec.le_def] at this
        have : s.kdfCount.toNat ≠ s.hdrRounds.toNat := fun h => h2 (BitVec.eq_of_toNat_eq h)
        omega

/-- The engine step of BODY_INIT raises one of two errors or loads the IV (42_body_cbc.md R93). -/
theorem initStep_cases (s : State) :
    (s.cipher = .twofish ∧ initStep s = s.raise .unsupportedCipher s.hdrFlags 0#32) ∨
    (s.cipher ≠ .twofish ∧ s.bodyLen % 16#32 ≠ 0#32 ∧
      initStep s = s.raise .truncatedCiphertext s.bodyLen (s.bodyLen % 16#32)) ∨
    (s.cipher ≠ .twofish ∧ s.bodyLen % 16#32 = 0#32 ∧
      initStep s =
        { s with chain := s.ivWords, blocksLeft := s.bodyLen / 16#32, phase := .body }.complete) := by
  unfold initStep
  split
  · exact .inl ⟨‹_›, rfl⟩
  · split
    · exact .inr (.inl ⟨‹_›, ‹_›, rfl⟩)
    · rename_i h
      exact .inr (.inr ⟨‹_›, not_not.1 h, rfl⟩)

/-- Every meaning answers a next state: its engine step or its request (43_control.md R100, R102). -/
theorem exec_cases (i : Instr) (s : State) :
    (i = .clear ∧ exec i s = .next s.clearSession) ∨
    (i ≠ .clear ∧ s.agent = .engine ∧ s.op = Op.ofInstr i ∧
      ((i = .parseHeader ∧ exec i s = .next (parseStep s)) ∨ (i = .deriveKey ∧ exec i s = .next (deriveStep s)) ∨
        (i = .bodyInit ∧ exec i s = .next (initStep s)) ∨ (i = .decryptBlock ∧ exec i s = .next (decryptStep s)))) ∨
    (i ≠ .clear ∧ ¬(s.agent = .engine ∧ s.op = Op.ofInstr i) ∧ exec i s = .next (s.request i)) := by
  cases i
  case clear => exact .inl ⟨rfl, rfl⟩
  case parseHeader =>
    by_cases h : s.agent = .engine ∧ s.op = .parse
    · exact .inr (.inl ⟨nofun, h.1, h.2, .inl ⟨rfl, by simp [exec, execParseHeader, State.engineRuns, h]⟩⟩)
    · exact .inr (.inr ⟨nofun, h, by simp only [exec, execParseHeader]; rw [if_neg (by rwa [State.engineRuns_iff])]⟩)
  case deriveKey =>
    by_cases h : s.agent = .engine ∧ s.op = .derive
    · exact .inr (.inl ⟨nofun, h.1, h.2, .inr (.inl ⟨rfl, by simp [exec, execDeriveKey, State.engineRuns, h]⟩)⟩)
    · exact .inr (.inr ⟨nofun, h, by simp only [exec, execDeriveKey]; rw [if_neg (by rwa [State.engineRuns_iff])]⟩)
  case bodyInit =>
    by_cases h : s.agent = .engine ∧ s.op = .init
    · exact .inr (.inl ⟨nofun, h.1, h.2, .inr (.inr (.inl ⟨rfl, by simp [exec, execBodyInit, State.engineRuns, h]⟩))⟩)
    · exact .inr (.inr ⟨nofun, h, by simp only [exec, execBodyInit]; rw [if_neg (by rwa [State.engineRuns_iff])]⟩)
  case decryptBlock =>
    by_cases h : s.agent = .engine ∧ s.op = .decrypt
    · exact .inr (.inl ⟨nofun, h.1, h.2, .inr (.inr (.inr ⟨rfl, by simp [exec, execDecryptBlock, State.engineRuns, h]⟩))⟩)
    · exact .inr (.inr ⟨nofun, h, by simp only [exec, execDecryptBlock]; rw [if_neg (by rwa [State.engineRuns_iff])]⟩)

/-- In the host's access a command other than CLEAR is its request (43_control.md R100). -/
theorem exec_host {i : Instr} {s : State} (hi : i ≠ .clear) (ha : s.agent = .host) : exec i s = .next (s.request i) := by
  obtain ⟨h, -⟩ | ⟨-, h, -⟩ | ⟨-, -, h⟩ := exec_cases i s
  · exact absurd h hi
  · rw [ha] at h; cases h
  · exact h

/-- In the engine's step PARSE_HEADER is its engine step (43_control.md R102). -/
theorem exec_parse_engine {s : State} (ha : s.agent = .engine) (ho : s.op = .parse) :
    exec .parseHeader s = .next (parseStep s) := by
  simp only [exec, execParseHeader, if_pos ((s.engineRuns_iff .parse).2 ⟨ha, ho⟩)]

/-- In the engine's step DERIVE_KEY is its enabled engine step (43_control.md R102). -/
theorem exec_derive_engine {s : State} (ha : s.agent = .engine) (ho : s.op = .derive) :
    exec .deriveKey s = .next (deriveStep s) := by
  simp only [exec, execDeriveKey, if_pos ((s.engineRuns_iff .derive).2 ⟨ha, ho⟩)]

/-- In the engine's step BODY_INIT is its engine step (43_control.md R102). -/
theorem exec_init_engine {s : State} (ha : s.agent = .engine) (ho : s.op = .init) :
    exec .bodyInit s = .next (initStep s) := by
  simp only [exec, execBodyInit, if_pos ((s.engineRuns_iff .init).2 ⟨ha, ho⟩)]

/-- In the engine's step DECRYPT_BLOCK is its engine step (43_control.md R102). -/
theorem exec_decrypt_engine {s : State} (ha : s.agent = .engine) (ho : s.op = .decrypt) :
    exec .decryptBlock s = .next (decryptStep s) := by
  simp only [exec, execDecryptBlock, if_pos ((s.engineRuns_iff .decrypt).2 ⟨ha, ho⟩)]

/-! The same engine steps by their shape alone: an error entry with a code that rules raise, or the writes of one branch. -/

/-- PARSE_HEADER's engine step is an error entry or the selection of a cipher (40_header.md R77). -/
theorem parseStep_shape (s : State) :
    (∃ e i0 i1, parseStep s = s.raise e i0 i1 ∧ e ≠ .none ∧ e ≠ .decryptionFailed) ∨
    ∃ c, parseStep s = { s with cipher := c, phase := .header }.complete := by
  rcases parseStep_cases s with ⟨_, h⟩ | ⟨_, _, h⟩ | ⟨_, _, _, _, h⟩ | ⟨_, _, _, _, _, h⟩ | ⟨c, _, _, _, _, _, _, h⟩ <;> rw [h]
  · exact .inl ⟨_, _, _, rfl, nofun, nofun⟩
  · exact .inl ⟨_, _, _, rfl, nofun, nofun⟩
  · exact .inl ⟨_, _, _, rfl, nofun, nofun⟩
  · exact .inl ⟨_, _, _, rfl, nofun, nofun⟩
  · exact .inr ⟨c, rfl⟩

/-- DERIVE_KEY's engine step is an error entry, the start of the rounds, a round, the finish, or nothing (41_kdf.md R84 to R86). -/
theorem deriveStep_shape (s : State) :
    (∃ e i0 i1, deriveStep s = s.raise e i0 i1 ∧ e ≠ .none ∧ e ≠ .decryptionFailed) ∨
    (∃ l r c, deriveStep s = { s with lblk := l, rblk := r, kdfCount := c, kstep := .stretch }) ∨
    deriveStep s = deriveRound s ∨ deriveStep s = deriveFinish s ∨ deriveStep s = s := by
  rcases deriveStep_cases s with ⟨_, h⟩ | ⟨_, _, h⟩ | ⟨_, _, h⟩ | ⟨_, _, h⟩ <;> rw [h]
  · rcases deriveStart_cases s with ⟨_, h⟩ | ⟨_, _, h⟩ | ⟨_, _, h⟩ <;> rw [h]
    · exact .inl ⟨_, _, _, rfl, nofun, nofun⟩
    · exact .inl ⟨_, _, _, rfl, nofun, nofun⟩
    · exact .inr (.inl ⟨_, _, _, rfl⟩)
  · exact .inr (.inr (.inl rfl))
  · exact .inr (.inr (.inr (.inl rfl)))
  · exact .inr (.inr (.inr (.inr rfl)))

/-- BODY_INIT's engine step is an error entry or the load of the IV (42_body_cbc.md R93). -/
theorem initStep_shape (s : State) :
    (∃ e i0 i1, initStep s = s.raise e i0 i1 ∧ e ≠ .none ∧ e ≠ .decryptionFailed) ∨
    ∃ c b, initStep s = { s with chain := c, blocksLeft := b, phase := .body }.complete := by
  rcases initStep_cases s with ⟨_, h⟩ | ⟨_, _, h⟩ | ⟨_, _, h⟩ <;> rw [h]
  · exact .inl ⟨_, _, _, rfl, nofun, nofun⟩
  · exact .inl ⟨_, _, _, rfl, nofun, nofun⟩
  · exact .inr ⟨_, _, rfl⟩

end Sys2Proof.Machine
end

