-- ==== Sys2Proof/Laws/Kdf.lean ====
section
/-! SUPPORT. Which engine step DERIVE_KEY takes, and the rounds on one half counted from either end (41_kdf.md R82, R84 to R86).
The primitives stay folded: a proof cites these and unfolds neither AES nor SHA. -/

namespace Sys2Proof.Machine

theorem stretch_zero (k : Bytes32) (x : Block) : stretch k 0 x = x := by simp only [stretch]

theorem stretch_succ (k : Bytes32) (n : Nat) (x : Block) : stretch k (n + 1) x = stretch k n (aes256Enc k x) := by
  simp only [stretch]

/-- One more round at the end is one more round at the start (41_kdf.md R82, step 3). -/
theorem stretch_succ_last (k : Bytes32) (n : Nat) (x : Block) : stretch k (n + 1) x = aes256Enc k (stretch k n x) := by
  induction n generalizing x with
  | zero => simp only [stretch_succ, stretch_zero]
  | succ n ih => rw [stretch_succ, ih, stretch_succ]

/-- The start step within both bounds (41_kdf.md R84). -/
theorem deriveStep_start {s : State} (hk : s.kstep = .start) (hl : s.passLen ≤ s.params.passMax)
    (hm : s.hdrRounds ≤ s.params.maxRounds) :
    deriveStep s =
      { s with
        lblk := (sha256 (s.passBytes s.passLen.toNat)).left,
        rblk := (sha256 (s.passBytes s.passLen.toNat)).right,
        kdfCount := 0#32, kstep := .stretch } := by
  unfold deriveStep
  rw [hk]
  simp only
  unfold deriveStart
  rw [if_neg (BitVec.not_lt.2 hl), if_neg (BitVec.not_lt.2 hm)]

/-- The round step (41_kdf.md R85). -/
theorem deriveStep_round {s : State} (hk : s.kstep = .stretch) (hc : s.kdfCount < s.hdrRounds) :
    deriveStep s = deriveRound s := by
  unfold deriveStep
  rw [hk]
  simp only
  rw [if_pos hc]

/-- The finish step (41_kdf.md R86). -/
theorem deriveStep_finish {s : State} (hk : s.kstep = .stretch) (hc : s.kdfCount = s.hdrRounds) :
    deriveStep s = deriveFinish s := by
  unfold deriveStep
  rw [hk]
  simp only
  rw [if_neg (by rw [hc]; exact BitVec.lt_irrefl _), if_pos hc]

end Sys2Proof.Machine
end

