-- ==== Sys2Proof/Laws/Memory.lean ====
section
/-! SUPPORT. The laws of the windows' memory: read after write, canonical form, and that equal contents are equal data. -/

namespace Sys2Proof.Machine

@[simp] theorem Memory.readByte_nil (a : Nat) : Memory.readByte [] a = 0#8 := rfl

/-- Below the first listed offset every byte reads as unlisted. -/
theorem Memory.readByte_of_lt {lo a : Nat} {m : Memory} (h : Memory.wfFrom lo m = true) (ha : a < lo) :
    Memory.readByte m a = Memory.unlisted := by
  induction m generalizing lo with
  | nil => rfl
  | cons c m ih =>
    obtain ⟨x, b⟩ := c
    simp only [Memory.wfFrom, Bool.and_eq_true, decide_eq_true_eq] at h
    obtain ⟨⟨h1, -⟩, h3⟩ := h
    simp only [Memory.readByte]
    rw [if_neg (by omega)]
    exact ih h3 (by omega)

theorem Memory.wfFrom_mono {lo lo' : Nat} {m : Memory} (h : Memory.wfFrom lo m = true) (hle : lo' ≤ lo) :
    Memory.wfFrom lo' m = true := by
  cases m with
  | nil => rfl
  | cons c m =>
    simp only [Memory.wfFrom, Bool.and_eq_true, decide_eq_true_eq] at h ⊢
    exact ⟨⟨by omega, h.1.2⟩, h.2⟩

/-- A byte write keeps the canonical form. -/
theorem Memory.wfFrom_writeByte {lo : Nat} {m : Memory} (h : Memory.wfFrom lo m = true) {a : Nat} (ha : lo ≤ a) (b : Byte) :
    Memory.wfFrom lo (Memory.writeByte m a b) = true := by
  induction m generalizing lo with
  | nil =>
    simp only [Memory.writeByte]
    split <;> simp_all [Memory.wfFrom]
  | cons c m ih =>
    obtain ⟨x, c⟩ := c
    simp only [Memory.wfFrom, Bool.and_eq_true, decide_eq_true_eq] at h
    obtain ⟨⟨h1, h2⟩, h3⟩ := h
    simp only [Memory.writeByte]
    split
    · split
      · simp [Memory.wfFrom, h1, h2, h3]
      · rename_i hlt hb
        simp [Memory.wfFrom, ha, hb, h2, h3]; omega
    · split
      · rename_i hlt heq
        subst heq
        split
        · exact Memory.wfFrom_mono h3 (by omega)
        · rename_i hb
          simp [Memory.wfFrom, ha, hb, h3]
      · simp [Memory.wfFrom, h1, h2]
        exact ih h3 (by omega)

theorem Memory.wf_writeByte {m : Memory} (h : Memory.wf m = true) (a : Nat) (b : Byte) :
    Memory.wf (Memory.writeByte m a b) = true := Memory.wfFrom_writeByte h (Nat.zero_le a) b

theorem Memory.wf_writeQuad {m : Memory} (h : Memory.wf m = true) (a : Nat) (q : Quad) :
    Memory.wf (Memory.writeQuad m a q) = true :=
  Memory.wf_writeByte (Memory.wf_writeByte (Memory.wf_writeByte (Memory.wf_writeByte h _ _) _ _) _ _) _ _

theorem Memory.wf_writeWord {m : Memory} (h : Memory.wf m = true) (a : Nat) (v : Word) :
    Memory.wf (Memory.writeWord m a v) = true := Memory.wf_writeQuad h a _

/-- A write leaves every other byte alone, in any memory. -/
theorem Memory.readByte_writeByte_ne (m : Memory) {a x : Nat} (b : Byte) (h : x ≠ a) :
    Memory.readByte (Memory.writeByte m a b) x = Memory.readByte m x := by
  induction m with
  | nil => simp only [Memory.writeByte]; split <;> simp [Memory.readByte, h]
  | cons c m ih =>
    obtain ⟨y, c⟩ := c
    simp only [Memory.writeByte]
    split
    · split
      · rfl
      · simp [Memory.readByte, h]
    · split
      · rename_i heq
        subst heq
        split <;> simp [Memory.readByte, h]
      · simp only [Memory.readByte, ih]

/-- A read after a write to the same byte gives the value written, in a canonical memory. -/
theorem Memory.readByte_writeByte_same_from {lo : Nat} {m : Memory} (hm : Memory.wfFrom lo m = true) (a : Nat) (b : Byte) :
    Memory.readByte (Memory.writeByte m a b) a = b := by
  induction m generalizing lo with
  | nil =>
    simp only [Memory.writeByte]
    split
    · simp_all [Memory.readByte, Memory.unlisted]
    · simp [Memory.readByte]
  | cons c m ih =>
    obtain ⟨x, c⟩ := c
    simp only [Memory.wfFrom, Bool.and_eq_true, decide_eq_true_eq] at hm
    obtain ⟨⟨-, -⟩, h3⟩ := hm
    simp only [Memory.writeByte]
    split
    · rename_i hlt
      split
      · rename_i hb
        simp only [Memory.readByte]
        rw [if_neg (by omega), Memory.readByte_of_lt h3 (by omega), hb]
      · simp [Memory.readByte]
    · split
      · rename_i heq
        subst heq
        split
        · rename_i hb
          rw [Memory.readByte_of_lt h3 (by omega), hb]
        · simp [Memory.readByte]
      · rename_i h1 h2
        simp only [Memory.readByte]
        rw [if_neg (by omega)]
        exact ih h3

theorem Memory.readByte_writeByte_same {m : Memory} (hm : Memory.wf m = true) (a : Nat) (b : Byte) :
    Memory.readByte (Memory.writeByte m a b) a = b := Memory.readByte_writeByte_same_from hm a b

/-- A group write leaves every byte outside its four alone. -/
theorem Memory.readByte_writeQuad_ne (m : Memory) {a x : Nat} (q : Quad) (h : x < a ∨ a + 4 ≤ x) :
    Memory.readByte (Memory.writeQuad m a q) x = Memory.readByte m x := by
  simp only [Memory.writeQuad]
  rw [Memory.readByte_writeByte_ne _ _ (by omega), Memory.readByte_writeByte_ne _ _ (by omega),
    Memory.readByte_writeByte_ne _ _ (by omega), Memory.readByte_writeByte_ne _ _ (by omega)]

theorem Memory.readByte_writeWord_ne (m : Memory) {a x : Nat} (v : Word) (h : x < a ∨ a + 4 ≤ x) :
    Memory.readByte (Memory.writeWord m a v) x = Memory.readByte m x := Memory.readByte_writeQuad_ne m _ h

theorem Memory.readQuad_writeQuad_same {m : Memory} (hm : Memory.wf m = true) (a : Nat) (q : Quad) :
    Memory.readQuad (Memory.writeQuad m a q) a = q := by
  have h1 := Memory.wf_writeByte hm a q.b0
  have h2 := Memory.wf_writeByte h1 (a + 1) q.b1
  have h3 := Memory.wf_writeByte h2 (a + 2) q.b2
  simp only [Memory.readQuad, Memory.writeQuad]
  rw [Memory.readByte_writeByte_ne _ _ (show a ≠ a + 3 by omega), Memory.readByte_writeByte_ne _ _ (show a ≠ a + 2 by omega),
    Memory.readByte_writeByte_ne _ _ (show a ≠ a + 1 by omega), Memory.readByte_writeByte_same hm,
    Memory.readByte_writeByte_ne _ _ (show a + 1 ≠ a + 3 by omega), Memory.readByte_writeByte_ne _ _ (show a + 1 ≠ a + 2 by omega),
    Memory.readByte_writeByte_same h1,
    Memory.readByte_writeByte_ne _ _ (show a + 2 ≠ a + 3 by omega), Memory.readByte_writeByte_same h2,
    Memory.readByte_writeByte_same h3]

/-- A word read after a write to the same word gives the value written. -/
theorem Memory.readWord_writeWord_same {m : Memory} (hm : Memory.wf m = true) (a : Nat) (v : Word) :
    Memory.readWord (Memory.writeWord m a v) a = v := by
  simp [Memory.readWord, Memory.writeWord, Memory.readQuad_writeQuad_same hm]

theorem Memory.readQuad_writeWord_ne (m : Memory) {a x : Nat} (v : Word) (h : x + 4 ≤ a ∨ a + 4 ≤ x) :
    Memory.readQuad (Memory.writeWord m a v) x = Memory.readQuad m x := by
  simp only [Memory.readQuad]
  rw [Memory.readByte_writeWord_ne _ _ (by omega), Memory.readByte_writeWord_ne _ _ (by omega),
    Memory.readByte_writeWord_ne _ _ (by omega), Memory.readByte_writeWord_ne _ _ (by omega)]

theorem Memory.readWord_writeWord_ne (m : Memory) {a x : Nat} (v : Word) (h : x + 4 ≤ a ∨ a + 4 ≤ x) :
    Memory.readWord (Memory.writeWord m a v) x = Memory.readWord m x := by
  simp [Memory.readWord, Memory.readQuad_writeWord_ne m v h]

/-- Every offset a byte write lists was listed before or is the one written. -/
theorem Memory.mem_writeByte {m : Memory} {a : Nat} {b : Byte} {c : Host.Cell} (h : c ∈ Memory.writeByte m a b) :
    c ∈ m ∨ c.1 = a := by
  induction m with
  | nil =>
    simp only [Memory.writeByte] at h
    split at h
    · simp at h
    · simp only [List.mem_singleton] at h; right; rw [h]
  | cons d m ih =>
    obtain ⟨x, d⟩ := d
    simp only [Memory.writeByte] at h
    split at h
    · split at h
      · exact .inl h
      · rcases List.mem_cons.1 h with h | h
        · right; rw [h]
        · exact .inl h
    · split at h
      · split at h
        · exact .inl (List.mem_cons_of_mem _ h)
        · rcases List.mem_cons.1 h with h | h
          · right; rw [h]
          · exact .inl (List.mem_cons_of_mem _ h)
      · rcases List.mem_cons.1 h with h | h
        · exact .inl (by rw [h]; exact List.mem_cons_self)
        · rcases ih h with h | h
          · exact .inl (List.mem_cons_of_mem _ h)
          · exact .inr h

/-- Every offset a word write lists was listed before or is one of the word's four. -/
theorem Memory.mem_writeWord {m : Memory} {a : Nat} {v : Word} {c : Host.Cell} (h : c ∈ Memory.writeWord m a v) :
    c ∈ m ∨ (a ≤ c.1 ∧ c.1 < a + 4) := by
  rcases Memory.mem_writeByte h with h | h
  · rcases Memory.mem_writeByte h with h | h
    · rcases Memory.mem_writeByte h with h | h
      · rcases Memory.mem_writeByte h with h | h
        · exact .inl h
        · exact .inr (by omega)
      · exact .inr (by omega)
    · exact .inr (by omega)
  · exact .inr (by omega)

/-- Equal contents are equal data: two canonical memories that read alike everywhere are the same list. -/
theorem Memory.ext_of_wfFrom {lo : Nat} {m n : Memory} (hm : Memory.wfFrom lo m = true) (hn : Memory.wfFrom lo n = true)
    (h : ∀ a, Memory.readByte m a = Memory.readByte n a) : m = n := by
  induction m generalizing lo n with
  | nil =>
    cases n with
    | nil => rfl
    | cons c n =>
      simp only [Memory.wfFrom, Bool.and_eq_true, decide_eq_true_eq] at hn
      have := h c.1
      simp only [Memory.readByte, if_pos] at this
      exact absurd this.symm hn.1.2
  | cons c m ih =>
    obtain ⟨x, b⟩ := c
    simp only [Memory.wfFrom, Bool.and_eq_true, decide_eq_true_eq] at hm
    cases n with
    | nil =>
      have := h x
      simp only [Memory.readByte, if_pos] at this
      exact absurd this hm.1.2
    | cons d n =>
      obtain ⟨y, d⟩ := d
      simp only [Memory.wfFrom, Bool.and_eq_true, decide_eq_true_eq] at hn
      have hxy : x = y := by
        rcases Nat.lt_trichotomy x y with hlt | heq | hlt
        · have := h x
          simp only [Memory.readByte, if_pos] at this
          rw [if_neg (by omega), Memory.readByte_of_lt hn.2 (by omega)] at this
          exact absurd this hm.1.2
        · exact heq
        · have := h y
          simp only [Memory.readByte, if_pos] at this
          rw [if_neg (by omega), Memory.readByte_of_lt hm.2 (by omega)] at this
          exact absurd this.symm hn.1.2
      subst hxy
      have hb : b = d := by simpa [Memory.readByte] using h x
      subst hb
      congr 1
      refine ih hm.2 hn.2 fun a => ?_
      by_cases hax : a = x
      · rw [Memory.readByte_of_lt hm.2 (by omega), Memory.readByte_of_lt hn.2 (by omega)]
      · have := h a
        simpa [Memory.readByte, hax, Ne.symm hax] using this

theorem Memory.ext_of_wf {m n : Memory} (hm : Memory.wf m = true) (hn : Memory.wf n = true)
    (h : ∀ a, Memory.readByte m a = Memory.readByte n a) : m = n := Memory.ext_of_wfFrom hm hn h

end Sys2Proof.Machine
end

