-- ==== Sys2Proof/Laws/PerInstr.lean ====
section
/-! SUPPORT. Statements made for each command: the fields of its encoding (30_encoding.md R63, R64). -/

namespace Sys2Proof.Laws

/-- RSV of a command's word is 0 and OPC is the command's opcode, and the command is well formed. -/
def ReservedClear.Statement (i : Instr) : Prop :=
  i.wellFormed = true ∧ rsvField (encode i) = 0#24 ∧ opcField (encode i) = opcOf i

theorem ReservedClear.clear : ReservedClear.Statement .clear := ⟨rfl, rfl, rfl⟩
theorem ReservedClear.parseHeader : ReservedClear.Statement .parseHeader := ⟨rfl, rfl, rfl⟩
theorem ReservedClear.deriveKey : ReservedClear.Statement .deriveKey := ⟨rfl, rfl, rfl⟩
theorem ReservedClear.bodyInit : ReservedClear.Statement .bodyInit := ⟨rfl, rfl, rfl⟩
theorem ReservedClear.decryptBlock : ReservedClear.Statement .decryptBlock := ⟨rfl, rfl, rfl⟩

end Sys2Proof.Laws
end

