-- ==== Sys2Proof/Laws/Window.lean ====
section
/-! SUPPORT. Which register an offset maps, and what the operands see of a write to one of the windows (10_state.md R14, R34, R35). -/

namespace Sys2Proof.Machine

/-- An offset of the window, as a bus address, selects the block at that offset (10_state.md R14). -/
@[simp] theorem windowOffset_base_add (p : Params) {off : Nat} (h : off < windowBytes) :
    windowOffset p (p.base + off) = some off := by
  simp [windowOffset, h]

theorem windowOffset_eq_some (p : Params) {addr off : Nat} (h : windowOffset p addr = some off) :
    addr = p.base + off ∧ off < windowBytes := by
  simp only [windowOffset] at h
  split at h
  · simp only [Option.some.injEq] at h; omega
  · cases h

/-- The legal parameters as facts on numbers (00_scope.md R8). -/
theorem Params.legal_iff (p : Params) :
    p.legal = true ↔ p.base % 4096 = 0 ∧ p.passMax.toNat % 4 = 0 ∧ 4 ≤ p.passMax.toNat ∧ p.passMax.toNat ≤ 1024 := by
  simp only [Params.legal, Bool.and_eq_true, decide_eq_true_eq, and_assoc]

/-- The offsets of the registers are aligned offsets of the window (10_state.md R14). -/
theorem Reg.offset_aligned {p : Params} (hp : p.legal = true) {r : Reg} (hk : ∀ k, r = .pass k → k < p.passMax.toNat / 4) :
    r.offset < windowBytes ∧ r.offset % 4 = 0 := by
  obtain ⟨-, -, -, h⟩ := (Params.legal_iff p).1 hp
  cases r
  case pass k =>
    have := hk k rfl
    simp only [Reg.offset, windowBytes, passBase]
    omega
  all_goals simp [Reg.offset, windowBytes, hdrBase]
  all_goals omega

@[simp] theorem regAt_cmd (p : Params) : regAt p Reg.cmd.offset = some .cmd := by
  simp [regAt, Reg.offset, singleReg]

/-- A word below 0x040 maps what the table of single registers says. -/
theorem regAt_single (p : Params) {off : Nat} (h : off < 0x040) : regAt p off = singleReg (off / 4) := by
  simp [regAt, h]

/-- The only offset of CMD among the aligned ones is its own (10_state.md R14). -/
theorem regAt_eq_cmd (p : Params) {off : Nat} (hal : off % 4 = 0) (h : regAt p off = some .cmd) : off = Reg.cmd.offset := by
  simp only [regAt] at h
  split at h
  · rename_i hlt
    simp only [singleReg] at h
    split at h <;> simp at h
    simp only [Reg.offset]; omega
  all_goals (repeat' split at h) <;> simp at h

/-- PASS[k] is mapped only below PASS_MAX/4 (10_state.md R35). -/
theorem regAt_eq_pass (p : Params) {off k : Nat} (h : regAt p off = some (.pass k)) : k < p.passMax.toNat / 4 := by
  simp only [regAt] at h
  split at h
  · simp only [singleReg] at h
    split at h <;> simp at h
  · (repeat' split at h) <;> simp at h
    subst h; assumption

/-- The offsets of the two windows (10_state.md R34, R35). -/
theorem inWindows_iff (p : Params) (a : Nat) :
    inWindows p a = true ↔ (0x100 ≤ a ∧ a < 0x17C) ∨ (0x200 ≤ a ∧ a < 0x200 + 4 * (p.passMax.toNat / 4)) := by
  simp only [inWindows, Bool.or_eq_true, Bool.and_eq_true, decide_eq_true_eq]
  simp only [hdrBase, passBase]

/-! What a write to PASS leaves of the header: everything, since the windows do not overlap. -/

theorem readQuad_hdr_of_pass_write (m : Memory) {k j : Nat} (v : Word) (hk : k < 31) :
    Memory.readQuad (Memory.writeWord m (passBase + 4 * j) v) (hdrBase + 4 * k) = Memory.readQuad m (hdrBase + 4 * k) :=
  Memory.readQuad_writeWord_ne m v (by simp only [hdrBase, passBase]; omega)

/-- A write to HDR leaves every passphrase byte. -/
theorem passBytes_of_hdr_write (s : State) {k : Nat} (v : Word) (hk : k < 31) (n : Nat) :
    State.passBytes { s with mem := Memory.writeWord s.mem (hdrBase + 4 * k) v } n = s.passBytes n := by
  simp only [State.passBytes]
  refine List.map_congr_left fun i _ => ?_
  exact Memory.readByte_writeWord_ne s.mem v (by simp only [hdrBase, passBase]; omega)

end Sys2Proof.Machine
end

