-- ==== Sys2Proof/Laws/Step.lean ====
section
/-! SUPPORT. What one step can do, said once: every step is one of the changes listed here, after the model's own fields (`sched`,
`agent`, `resp`) moved on; or a pin or the power changed. Statements over all steps are case splits on `step_cases`. -/

namespace Sys2Proof.Machine

/-- What a host write or an engine step does to the block; `e` says that the input ends the session. -/
inductive Change (e : Bool) (s : State) : State → Prop where
  | keep : Change e s s
  | drop : Change e s s.dropWrite
  | status (v : Word) : Change e s (s.writeStatus v)
  | ctrl (v : Word) : Change e s (s.writeCtrl v)
  | fileLen (v : Word) (ho : s.op = .none) (hp : s.phase = .empty) : Change e s { s with fileLen := v }
  | hdr (k : Fin 31) (v : Word) (ho : s.op = .none) (hp : s.phase = .empty) :
      Change e s { s with mem := Memory.writeWord s.mem (hdrBase + 4 * k.val) v }
  | passLen (v : Word) (ho : s.op = .none) : Change e s { s with passLen := v }
  | din (i : Fin 4) (v : Word) (ho : s.op = .none) : Change e s { s with din := s.din.set i v }
  | pass (k : Nat) (v : Word) (ho : s.op = .none) (hk : k < s.params.passMax.toNat / 4) :
      Change e s { s with mem := Memory.writeWord s.mem (passBase + 4 * k) v }
  | clear (he : e = true) : Change e s s.clearSession
  | illegal (w : Word) (ho : s.op = .none) (hp : s.phase ≠ .error) : Change e s (s.raise .illegalCommand w 0#32)
  | sequence (i : Instr) (ho : s.op = .none) (hp : s.phase ≠ .error) (hl : s.legal i = false) :
      Change e s (s.raise .sequenceError (encode i) s.phaseWord)
  | accept (i : Instr) (hi : i ≠ .clear) (ho : s.op = .none) (hl : s.legal i = true) : Change e s (s.accept i)
  | parse (ho : s.op = .parse) : Change e s (parseStep s)
  | derive (ho : s.op = .derive) : Change e s (deriveStep s)
  | init (ho : s.op = .init) : Change e s (initStep s)
  | decrypt (ho : s.op = .decrypt) : Change e s (decryptStep s)

/-- The block after the model's own fields moved on. -/
def State.moved (s : State) (sched : List Event) (agent : Agent) (resp : Option Response) : State :=
  { s with sched := sched, agent := agent, resp := resp }

theorem Change.of_request {e : Bool} {s : State} {i : Instr} (hi : i ≠ .clear) : Change e s (s.request i) := by
  obtain ⟨-, h⟩ | ⟨hd, hl, h⟩ | ⟨hd, hl, h⟩ := s.request_cases i <;> rw [h]
  · exact .drop
  · exact .accept i hi ((s.dropsRequest_eq_false).1 hd).1 hl
  · exact .sequence i ((s.dropsRequest_eq_false).1 hd).1 ((s.dropsRequest_eq_false).1 hd).2 hl

theorem Change.of_writeInput {e : Bool} {s t : State} (h : s.op = .none → Change e s t) : Change e s (s.writeInput t) := by
  unfold State.writeInput
  split
  · exact .drop
  · rename_i hb
    exact h (by simpa [State.busy] using hb)

theorem Change.of_writeHeaderInput {e : Bool} {s t : State} (h : s.op = .none → s.phase = .empty → Change e s t) :
    Change e s (s.writeHeaderInput t) := by
  unfold State.writeHeaderInput
  split
  · exact .drop
  · rename_i hb
    simp [State.busy, State.headerLocked] at hb
    exact h hb.1 hb.2

/-- What a meaning does, for a command whose request or engine step this is. -/
theorem Change.of_exec {e : Bool} {s t : State} {i : Instr} (h : exec i s = .next t) (hc : i = .clear → e = true) :
    Change e s t := by
  obtain ⟨hi, he⟩ | ⟨-, -, ho, h1⟩ | ⟨hi, -, he⟩ := exec_cases i s
  · rw [he] at h; cases h; exact .clear (hc hi)
  · obtain ⟨rfl, he⟩ | ⟨rfl, he⟩ | ⟨rfl, he⟩ | ⟨rfl, he⟩ := h1 <;> rw [he] at h <;> cases h
    · exact .parse ho
    · exact .derive ho
    · exact .init ho
    · exact .decrypt ho
  · rw [he] at h; cases h; exact .of_request hi

theorem Change.of_memWrite {e : Bool} {s t : State} {off : Nat} {v : Word} (h : memWrite off v s = .next t)
    (hal : off % 4 = 0) (hc : off = Reg.cmd.offset → v = encode .clear → e = true) : Change e s t := by
  unfold memWrite at h
  split at h
  case h_2 => cases h; exact .keep
  rename_i r hr
  cases r <;> simp only [writeReg, Host.Outcome.next.injEq] at h <;> (try (subst h; first | exact .keep | exact .status v | exact .ctrl v))
  case cmd =>
    unfold writeCmd at h
    split at h
    · rename_i i hd
      refine .of_exec h fun hi => hc (regAt_eq_cmd _ hal hr) ?_
      subst hi
      simp only [decode] at hd
      split at hd <;> try cases hd
      rename_i hrsv
      split at hd <;> cases hd
      rename_i hopc
      simp only [instrOfOpc] at hopc
      split at hopc
      · rename_i h1
        simp only [rsvField, opcField] at hrsv h1
        have : v = (v.extractLsb' 8 24 ++ v.extractLsb' 0 8 : BitVec (24 + 8)) := by
          apply BitVec.eq_of_getLsbD_eq; intro i hi
          rw [BitVec.getLsbD_append]
          split <;> grind
        rw [hrsv, h1] at this
        rw [this]; rfl
      · (repeat' split at hopc) <;> simp at hopc
    · cases h
      obtain ⟨-, h⟩ | ⟨hd, h⟩ := s.illegalRequest_cases v <;> rw [h]
      · exact .drop
      · exact .illegal v ((s.dropsRequest_eq_false).1 hd).1 ((s.dropsRequest_eq_false).1 hd).2
  case fileLen => subst h; exact .of_writeHeaderInput fun ho hp => .fileLen v ho hp
  case hdr k => subst h; exact .of_writeHeaderInput fun ho hp => .hdr k v ho hp
  case passLen => subst h; exact .of_writeInput fun ho => .passLen v ho
  case din i => subst h; exact .of_writeInput fun ho => .din i v ho
  case pass k => subst h; exact .of_writeInput fun ho => .pass k v ho (regAt_eq_pass _ hr)

/-! One host access as a step: the four lemmas below put `step` aside for every statement about an access. -/

/-- A read at a window offset, as a step (20_memory.md R46). -/
theorem step_read {s : State} {off bytes : Nat} {rest : List Event}
    (hs : s.sched = .host (.read (s.params.base + off) bytes) :: rest) (ho : off < windowBytes) (hp : s.powerLost = false) :
    step s = hostRead off bytes (s.moved rest .host s.resp) := by
  unfold step
  rw [hs]
  simp only [perform]
  rw [if_neg (by simp [hp])]
  simp only [hostAccess, windowOffset_base_add s.params ho]
  rfl

/-- A write at a window offset, as a step (20_memory.md R47). -/
theorem step_write {s : State} {off bytes : Nat} {v : Word} {rest : List Event}
    (hs : s.sched = .host (.write (s.params.base + off) bytes v) :: rest) (ho : off < windowBytes)
    (hp : s.powerLost = false) :
    step s = hostWrite off bytes v (s.moved rest .host s.resp) := by
  unfold step
  rw [hs]
  simp only [perform]
  rw [if_neg (by simp [hp])]
  simp only [hostAccess, windowOffset_base_add s.params ho]
  rfl

/-- A 32-bit read at an aligned offset outside reset, as a step (20_memory.md R46). -/
theorem step_readAt {s : State} {off : Nat} {rest : List Event} (hs : s.sched = readAt s.params off :: rest)
    (ho : off < windowBytes) (hal : off % 4 = 0) (hr : s.rst = false) (hp : s.powerLost = false) :
    step s = .next (s.moved rest .host (some ⟨true, (s.moved rest .host s.resp).memRead off⟩)) := by
  rw [step_read hs ho hp]
  have hw : wholeWord off 4 = true := by simp [wholeWord, hal]
  unfold hostRead
  rw [if_neg (by simp [State.moved, hr]), if_pos hw]
  rfl

/-- A 32-bit write at an aligned offset outside reset, as a step (20_memory.md R47). -/
theorem step_writeAt {s : State} {off : Nat} {v : Word} {rest : List Event} (hs : s.sched = writeAt s.params off v :: rest)
    (ho : off < windowBytes) (hal : off % 4 = 0) (hr : s.rst = false) (hp : s.powerLost = false) :
    step s = memWrite off v (s.moved rest .host (some ⟨true, 0#32⟩)) := by
  rw [step_write hs ho hp]
  have hw : wholeWord off 4 = true := by simp [wholeWord, hal]
  unfold hostWrite
  rw [if_neg (by simp [State.moved, hr]), if_pos hw]
  rfl

/-- A 32-bit write at a mapped aligned offset outside reset, as a step (20_memory.md R47). -/
theorem step_writeReg {s : State} {off : Nat} {r : Reg} {v : Word} {rest : List Event}
    (hs : s.sched = writeAt s.params off v :: rest) (hm : regAt s.params off = some r) (ho : off < windowBytes)
    (hal : off % 4 = 0) (hr : s.rst = false) (hp : s.powerLost = false) :
    step s = writeReg r v (s.moved rest .host (some ⟨true, 0#32⟩)) := by
  rw [step_writeAt hs ho hal hr hp]
  simp only [memWrite, State.moved, hm]

/-- What one step can do. -/
theorem step_cases {s t : State} (h : step s = .next t) :
    (∃ q a r, Change s.endsSession (s.moved q a r) t ∧ (s.rst = true → t = s.moved q a r)) ∨
    (∃ q l, t = (s.moved q s.agent s.resp).setRst l ∧ (l = true → s.endsSession = true)) ∨
    (∃ q b, t = { s.moved q s.agent s.resp with clk := b }) ∨
    (∃ q, t = { s.moved q s.agent s.resp with powerLost := true }) := by
  have engine : ∀ q, engineTurn { s with sched := q } = .next t →
      ∃ q a r, Change s.endsSession (s.moved q a r) t ∧ (s.rst = true → t = s.moved q a r) := by
    intro q h
    simp only [engineTurn] at h
    split at h
    · cases h
    split at h
    · cases h; exact ⟨q, s.agent, s.resp, .keep, fun _ => rfl⟩
    rename_i hr
    simp only [Bool.or_eq_true, not_or] at hr
    split at h
    · rename_i i hi
      exact ⟨q, .engine, s.resp, .of_exec h (by rintro rfl; revert hi; cases s.op <;> simp [Op.instr]),
        fun hrst => absurd hrst hr.1⟩
    · cases h; exact ⟨q, s.agent, s.resp, .keep, fun _ => rfl⟩
  unfold step at h
  split at h
  · rename_i hs
    exact .inl (engine [] (by rw [← hs]; exact h))
  rename_i e q hs
  cases e with
  | engine => exact .inl (engine q h)
  | rst l =>
    cases h
    exact .inr (.inl ⟨q, l, rfl, fun hl => by subst hl; simp [State.endsSession, hs]⟩)
  | clock b => cases h; exact .inr (.inr (.inl ⟨q, b, rfl⟩))
  | powerOff => cases h; exact .inr (.inr (.inr ⟨q, rfl⟩))
  | host a =>
    refine .inl ?_
    simp only [perform] at h
    split at h
    · cases h
    cases a with
    | read addr bytes =>
      simp only [hostAccess] at h
      split at h
      · simp only [hostRead] at h
        (repeat' split at h) <;> (cases h; exact ⟨q, .host, _, .keep, fun _ => rfl⟩)
      · cases h; exact ⟨q, .host, none, .keep, fun _ => rfl⟩
    | write addr bytes v =>
      simp only [hostAccess] at h
      split at h
      · rename_i off ho
        simp only [hostWrite] at h
        split at h
        · cases h; exact ⟨q, .host, _, .keep, fun _ => rfl⟩
        rename_i hr
        split at h
        · rename_i hw
          simp only [wholeWord, Bool.and_eq_true, decide_eq_true_eq] at hw
          refine ⟨q, .host, some ⟨true, 0#32⟩, .of_memWrite h hw.2 ?_, fun hrst => absurd hrst hr⟩
          rintro rfl rfl
          simp [State.endsSession, hs, hw.1, ho]
          simpa using hr
        · cases h; exact ⟨q, .host, _, .keep, fun _ => rfl⟩
      · cases h; exact ⟨q, .host, none, .keep, fun _ => rfl⟩

/-- The engine's turn under way: with no input left, the step is the meaning of the command in progress (43_control.md R102). -/
theorem step_engine {s : State} {i : Instr} (hi : s.op.instr = some i) (hs : s.sched = []) (hr : s.rst = false)
    (hc : s.clk = true) (hp : s.powerLost = false) : step s = exec i { s with agent := .engine } := by
  unfold step
  rw [hs]
  simp only
  unfold engineTurn
  rw [if_neg (by simp [hp]), if_neg (by simp [hr, hc])]
  simp only [hi, hs]

/-- A run of one step more: the step, then the run. -/
theorem run_succ {s t : State} (n : Nat) (h : step s = .next t) :
    Host.Core.run Sys2Proof.core (n + 1) s = Host.Core.run Sys2Proof.core n t := by
  have h' : Sys2Proof.core.step s = .next t := h
  simp only [Host.Core.run, h']

end Sys2Proof.Machine
end

