-- ==== Sys2Proof/Tests/Slice0.lean ====
section
/-! SUPPORT. Tests on values the spec gives (95_test_vectors.md), the WellFormed smoke tests, and for every obligation with
hypotheses a concrete state that meets them, a clause at a time. -/

namespace Sys2Proof.Tests

open Sys2Proof.Machine

/-! ## Helpers: small states -/

/-- The value of `f` in the next state, none where the step stops. -/
def nextField {α : Type} (f : State → α) : Host.Outcome State Fault Refusal → Option α
  | .next s => some (f s)
  | .fault _ => none
  | .refused _ => none

/-- Words from an offset up. -/
def put : Memory → Nat → List Word → Memory
  | m, _, [] => m
  | m, a, w :: ws => put (Memory.writeWord m a w) (a + 4) ws

/-- The header image `h` of 95_test_vectors.md with seeds S16 and S32 and vector IV, and the passphrase P in PASS[0..1]. -/
def image (flags version rounds : Word) : Memory :=
  put (put (put (put (put (put [] 0x100 [0x9AA2D903#32, 0xB54BFB65#32, flags, version])
    0x110 [0x03020100#32, 0x07060504#32, 0x0B0A0908#32, 0x0F0E0D0C#32])
    0x120 [0xA3A2A1A0#32, 0xA7A6A5A4#32, 0xABAAA9A8#32, 0xAFAEADAC#32])
    0x158 [0x83828180#32, 0x87868584#32, 0x8B8A8988#32, 0x8F8E8D8C#32, 0x93929190#32, 0x97969594#32, 0x9B9A9998#32,
      0x9F9E9D9C#32])
    0x178 [rounds])
    0x200 [0x73736170#32, 0x64726F77#32]

/-- EMPTY with everything loaded: FILE_LEN 156, PASS_LEN 8. -/
def sEmpty (flags version rounds : Word) : State :=
  { State.reset with mem := image flags version rounds, fileLen := 156#32, passLen := 8#32 }

/-- HEADER after PARSE_HEADER of an AES header. -/
def sHeader (rounds : Word) : State :=
  { sEmpty 3#32 0x00030004#32 rounds with phase := .header, cipher := .aes, done := true }

/-- DERIVE_KEY accepted. -/
def sDerive (rounds : Word) : State := { sHeader rounds with op := .derive, done := false }

/-- DERIVE_KEY after its start step. -/
def sRounds (rounds : Word) : State :=
  { sDerive rounds with
    kstep := .stretch, lblk := (sha256 ((sDerive rounds).passBytes 8)).left,
    rblk := (sha256 ((sDerive rounds).passBytes 8)).right }

/-- KEYED: the key is any one. -/
def sKeyed : State :=
  { sHeader 2#32 with phase := .keyed, kdfCount := 2#32, key := ⟨1, 2, 3, 4, 5, 6, 7, 8⟩ }

/-- BODY with two blocks left, the last chaining value IV. -/
def sBody : State := { sKeyed with phase := .body, blocksLeft := 2#32, chain := sKeyed.ivWords }

/-- ERROR after BadSignature. -/
def sError : State := (sEmpty 3#32 0x00030004#32 2#32).raise .badSignature 1#32 2#32

/-- A state with one input to come. -/
def with1 (s : State) (e : Event) : State := { s with sched := [e] }

/-- A state in which the engine's step of an operation is in progress. -/
def turn (s : State) (o : Op) : State := { s with agent := .engine, op := o, done := false }

/-! ## Decoding: words written out bit by bit from 30_encoding.md R63, R64 (RSV 24 bits, OPC 8 bits) -/

theorem test_decode_clear : decode 0b000000000000000000000000_00000001#32 = .ok .clear := rfl
theorem test_decode_parseHeader : decode 0b000000000000000000000000_00000010#32 = .ok .parseHeader := rfl
theorem test_decode_deriveKey : decode 0b000000000000000000000000_00000011#32 = .ok .deriveKey := rfl
theorem test_decode_bodyInit : decode 0b000000000000000000000000_00000100#32 = .ok .bodyInit := rfl
theorem test_decode_decryptBlock : decode 0b000000000000000000000000_00000101#32 = .ok .decryptBlock := rfl

/-- EN-6 to EN-10: the words that are no command, by name. -/
theorem test_decode_refuses :
    decode 0#32 = .error (.undefinedOpcode 0#32) ∧ decode 6#32 = .error (.undefinedOpcode 6#32) ∧
    decode 0x101#32 = .error (.reservedBits 0x101#32) ∧ decode 0x102#32 = .error (.reservedBits 0x102#32) ∧
    decode 0xFFFFFFFF#32 = .error (.reservedBits 0xFFFFFFFF#32) := ⟨rfl, rfl, rfl, rfl, rfl⟩

theorem test_decodeTableWord :
    decodeTableWord 32 1 = some .clear ∧ decodeTableWord 32 5 = some .decryptBlock ∧ decodeTableWord 8 3 = some .deriveKey ∧
    decodeTableWord 32 0x104 = none ∧ decodeTableWord 40 0x100000001 = none := ⟨rfl, rfl, rfl, rfl, rfl⟩

/-! ## WellFormed: an ill-formed parameter record for each check (00_scope.md R8), and a boundary value that passes -/

theorem test_params_base_aligned : Params.legal { Params.default with base := 0x1800 } = false := by decide
theorem test_params_passMax_multiple : Params.legal { Params.default with passMax := 258#32 } = false := by decide
theorem test_params_passMax_least : Params.legal { Params.default with passMax := 0#32 } = false := by decide
theorem test_params_passMax_most : Params.legal { Params.default with passMax := 1028#32 } = false := by decide
theorem test_params_legal :
    Params.legal { Params.default with base := 0x3000, passMax := 1024#32 } = true ∧
    Params.legal { Params.default with passMax := 4#32 } = true := by decide
theorem test_wellFormed :
    [Instr.clear, .parseHeader, .deriveKey, .bodyInit, .decryptBlock].all Instr.wellFormed = true := by decide

/-! ## Commands, one step each -/

/-- RS-1 and R140: CLEAR in BODY leaves the reset state but for CTRL. -/
theorem test_clear_leaves_ctrl :
    nextField (fun s => decide (s = { State.reset with irqEn := true })) (exec .clear { sBody with irqEn := true }) =
      some true := by decide

/-- KS-6: CLEAR while DERIVE_KEY runs. -/
theorem test_clear_aborts :
    nextField (fun s => (s.statusWord, s.lblk, s.kstep)) (exec .clear (sRounds 2#32)) =
      some (0#32, Block.zero, .start) := by decide

/-- PH-f: Twofish, the largest version, one engine step to STATUS 0x212. -/
theorem test_parse_twofish :
    nextField State.statusWord (exec .parseHeader (turn (sEmpty 8#32 0xFFFFFFFF#32 1#32) .parse)) =
      some 0x212#32 := by decide

/-- PH-d: the version is checked before the flags. -/
theorem test_parse_version_before_flags :
    nextField (fun s => (s.statusWord, s.errCodeWord, s.errInfo0))
      (exec .parseHeader (turn (sEmpty 0#32 0x0002FFFF#32 1#32) .parse)) =
      some (0x072#32, 3#32, 0x0002FFFF#32) := by decide

/-- KDF-2, round 1: both halves encrypted apart. -/
theorem test_derive_round :
    nextField (fun s => (s.lblk.toWords, s.rblk.toWords, s.kdfCount)) (exec .deriveKey { sRounds 1#32 with agent := .engine }) =
      some (⟨0xACF78FD6#32, 0x2610132B#32, 0xC2EEAC0F#32, 0x21DC152A#32⟩, ⟨0x2139240C#32, 0x0FC5481F#32, 0x553F5DCC#32,
        0xFB591BEE#32⟩, 1#32) := by decide +kernel

/-- KDF-1: no round, the key of the finish step. -/
theorem test_derive_finish :
    nextField (fun s => (s.key, s.statusWord)) (exec .deriveKey { sRounds 0#32 with agent := .engine }) =
      some (⟨0x2C230550#32, 0xCE2DF247#32, 0x46A44223#32, 0x0517A0CD#32, 0x39EC254A#32, 0x8F686C82#32, 0x299B40ED#32,
        0x74D6E9BB#32⟩, 0x122#32) := by decide +kernel

/-- BI-8: the greatest body of whole blocks. -/
theorem test_init_most_blocks :
    nextField (fun s => (s.statusWord, s.blocksLeft, s.chain.w0))
      (exec .bodyInit { turn sKeyed .init with fileLen := 0xFFFFFFFC#32 }) =
      some (0x132#32, 0x0FFFFFF8#32, 0xA3A2A1A0#32) := by decide

/-- BI-9: the cipher is checked before the length. -/
theorem test_init_cipher_before_length :
    nextField (fun s => (s.statusWord, s.errCodeWord, s.errInfo0))
      (exec .bodyInit { turn sKeyed .init with cipher := .twofish, mem := image 8#32 0x00030004#32 1#32, fileLen := 125#32 }) =
      some (0x272#32, 5#32, 8#32) := by decide

/-- CB-1: the first block of the example, under the key of KDF-3. -/
theorem test_decrypt_block :
    nextField (fun s => (s.dout, s.chain, s.blocksLeft))
      (exec .decryptBlock
        { turn sBody .decrypt with
          key := ⟨0xD50C3F6E#32, 0xC72CFFC6#32, 0xB426166E#32, 0x93E16B64#32, 0x89DDDA2C#32, 0x2B9DA319#32, 0xB110A1CC#32,
            0x2CA89717#32⟩,
          din := ⟨0x9D5AD9CD#32, 0xBC9C2F16#32, 0x9F285702#32, 0x4F0548BD#32⟩ }) =
      some (⟨0x00040001#32, 0x002A0000#32, 0xFFFF0000#32, 0#32⟩,
        ⟨0x9D5AD9CD#32, 0xBC9C2F16#32, 0x9F285702#32, 0x4F0548BD#32⟩, 1#32) := by decide +kernel

/-- CT-d: no block left. -/
theorem test_decrypt_no_block :
    nextField (fun s => (s.errCodeWord, s.errInfo0, s.errInfo1)) (exec .decryptBlock { sBody with blocksLeft := 0#32 }) =
      some (10#32, 5#32, 3#32) := by decide

/-! ## Accesses, one step each -/

/-- CT-e: a request is dropped while DERIVE_KEY runs. -/
theorem test_request_dropped :
    nextField State.statusWord (step (with1 (sDerive 2#32) (writeAt Params.default 0x008 4#32))) = some 0x115#32 := by
  decide

/-- MA-5: a 32-bit read at 0x00E, with an ERROR response. -/
theorem test_misaligned_read :
    nextField State.resp (step (with1 sBody (.host (.read 0x00E 4)))) = some (some ⟨false, 0#32⟩) := by decide

/-- MA-3: the last word of PASS reads, the first after it is unmapped. -/
theorem test_pass_end :
    regAt Params.default 0x2FC = some (.pass 63) ∧ regAt Params.default 0x300 = none := by decide

/-- MA-8: KEY is read-only, DROP unchanged. -/
theorem test_key_write_ignored :
    nextField (fun s => (s.key.w0, s.drop)) (step (with1 sKeyed (writeAt Params.default 0x080 9#32))) =
      some (1#32, false) := by decide

/-! ## Primitives (95_test_vectors.md, primitive vectors) -/

/-- SHA-4 and SHA-5: 55 bytes pad into one block, 56 into two. -/
theorem test_sha_padding :
    (shaPad (List.replicate 55 0x61#8)).length = 64 ∧ (shaPad (List.replicate 56 0x61#8)).length = 128 := by decide +kernel

/-- SHA-5. -/
theorem test_sha_two_blocks :
    (sha256 (List.replicate 56 0x61#8)).q0.toWordBE = 0xb35439a4#32 := by decide +kernel

/-- AES-3: words 8 and 59 of the key schedule. -/
theorem test_aes_schedule :
    let ws := keyExpand (Bytes32.ofWordsBE ⟨0x00010203#32, 0x04050607#32, 0x08090a0b#32, 0x0c0d0e0f#32, 0x10111213#32,
      0x14151617#32, 0x18191a1b#32, 0x1c1d1e1f#32⟩)
    ((ws.getD 8 Quad.zero).toWordBE, (ws.getD 59 Quad.zero).toWordBE, ws.length) =
      (0xa573c29f#32, 0x6d68de36#32, 60) := by decide

/-! ## Witnesses: for each obligation with hypotheses, concrete values that meet them, a clause at a time -/

/-- A step answers a next state. -/
theorem exists_next {o : Host.Outcome State Fault Refusal} (h : nextField (fun _ => true) o = some true) :
    ∃ t, o = .next t := by
  cases o with
  | next t => exact ⟨t, rfl⟩
  | fault r => cases h
  | refused r => cases h

/-- A step answers a next state with a property. -/
theorem exists_next_with {o : Host.Outcome State Fault Refusal} (P : State → Bool) (h : nextField P o = some true) :
    ∃ t, o = .next t ∧ P t = true := by
  cases o with
  | next t => exact ⟨t, rfl, by simpa [nextField] using h⟩
  | fault r => cases h
  | refused r => cases h

/-- DERIVE_KEY between its rounds meets the invariant of a session. -/
theorem session_sRounds : SessionInv (sRounds 2#32) := by
  constructor <;> decide

theorem session_sRounds_zero : SessionInv (sRounds 0#32) := by
  constructor <;> decide

theorem derivation_sRounds : DerivationInv (sRounds 2#32) := by
  constructor <;> decide +kernel

theorem derivation_sRounds_zero : DerivationInv (sRounds 0#32) := by
  constructor <;> decide +kernel

theorem witness_DecodeOfEncodeIsTheCommand : Instr.wellFormed .decryptBlock = true := rfl

theorem witness_RegisterMapAgreesWithOffsets :
    (∀ k, Reg.pass 63 = .pass k → k < Params.default.passMax.toNat / 4) ∧
    0x2FC % 4 = 0 ∧ regAt Params.default 0x2FC = some (.pass 63) :=
  ⟨by rintro k ⟨⟩; decide, rfl, rfl⟩

theorem witness_StepRunsTheDecodedCommand :
    let s := with1 (sEmpty 2#32 0x00030004#32 0#32) (writeAt Params.default 0x008 2#32)
    s.sched = writeAt s.params 0x008 2#32 :: [] ∧ s.rst = false ∧ s.powerLost = false ∧
    decode 2#32 = .ok .parseHeader ∧ Instr.wellFormed .parseHeader = true ∧
    decodeTableWord 32 2 = some .parseHeader := ⟨rfl, rfl, rfl, rfl, rfl, rfl⟩

theorem witness_EngineTurnRunsTheCommandInProgress :
    let s := sDerive 2#32
    s.op.instr = some .deriveKey ∧ s.rst = false ∧ s.clk = true ∧ s.powerLost = false ∧ s.sched = [] ∧
    (with1 s .engine).op.instr = some .deriveKey ∧ (with1 s .engine).rst = false ∧ (with1 s .engine).clk = true ∧
    (with1 s .engine).powerLost = false ∧ (with1 s .engine).sched = .engine :: [] := by decide

/-- Idle, in reset, and with the clock stopped. -/
theorem witness_WithoutAnEnabledStepTheStateIsHeld :
    let s1 := with1 sKeyed .engine
    let s2 := { with1 State.reset .engine with rst := true }
    let s3 := { sDerive 2#32 with clk := false }
    (s1.powerLost = false ∧ s1.op = .none ∧ s1.sched = .engine :: []) ∧
    (s2.powerLost = false ∧ s2.rst = true ∧ s2.sched = .engine :: []) ∧
    (s3.powerLost = false ∧ s3.clk = false ∧ s3.sched = []) := by decide

theorem witness_OnlyLostStateStops :
    let s := { sDerive 2#32 with powerLost := true }
    (sDerive 2#32).powerLost = false ∧ (s.powerLost = true ∧ s.sched = []) ∧
    ((with1 s .engine).powerLost = true ∧ (with1 s .engine).sched = .engine :: []) ∧
    ((with1 s (.host (.read 0 4))).powerLost = true ∧
      (with1 s (.host (.read 0 4))).sched = .host (.read 0 4) :: []) := by decide

theorem witness_RequestsAreDroppedWhenBusyOrInError :
    (Instr.deriveKey ≠ .clear ∧ (sDerive 2#32).agent = .host ∧ (sDerive 2#32).op ≠ .none) ∧
    (Instr.parseHeader ≠ .clear ∧ sError.agent = .host ∧ sError.phase = .error) := by decide

/-- The last block: BLOCKS_LEFT 1. -/
theorem witness_LegalRequestsAreAccepted :
    let s1 := sEmpty 2#32 0x00030004#32 0#32
    let s4 := { sBody with blocksLeft := 1#32 }
    (s1.agent = .host ∧ s1.op = .none ∧ s1.phase = .empty) ∧
    ((sHeader 2#32).agent = .host ∧ (sHeader 2#32).op = .none ∧ (sHeader 2#32).phase = .header) ∧
    (sKeyed.agent = .host ∧ sKeyed.op = .none ∧ sKeyed.phase = .keyed) ∧
    (s4.agent = .host ∧ s4.op = .none ∧ s4.phase = .body ∧ 0 < s4.blocksLeft.toNat) := by decide

/-- BODY with no block left breaks every precondition; HEADER breaks those of BODY_INIT and DECRYPT_BLOCK. -/
theorem witness_OutOfOrderRequestsRaiseSequenceError :
    let s1 := { sBody with blocksLeft := 0#32 }
    let s2 := sHeader 2#32
    (s1.agent = .host ∧ s1.op = .none ∧ s1.phase ≠ .error ∧ s1.phase ≠ .empty ∧ s1.phase ≠ .header ∧ s1.phase ≠ .keyed ∧
      s1.blocksLeft = 0#32) ∧
    (s2.agent = .host ∧ s2.op = .none ∧ s2.phase ≠ .error ∧ s2.phase ≠ .empty ∧ s2.phase ≠ .keyed ∧
      s2.phase ≠ .body) := by decide

/-- The words 0, 6 and 0x101, next to defined ones: idle, busy, and in ERROR. -/
theorem witness_UndefinedWordsRaiseIllegalCommand :
    let s1 := with1 sKeyed (writeAt Params.default 0x008 0#32)
    let s2 := with1 (sDerive 2#32) (writeAt Params.default 0x008 6#32)
    let s3 := with1 sError (writeAt Params.default 0x008 0x101#32)
    (s1.sched = writeAt s1.params 0x008 0#32 :: [] ∧ s1.rst = false ∧ s1.powerLost = false ∧ s1.op = .none ∧
      s1.phase ≠ .error) ∧
    (s2.sched = writeAt s2.params 0x008 6#32 :: [] ∧ s2.rst = false ∧ s2.powerLost = false ∧ s2.op ≠ .none) ∧
    (s3.sched = writeAt s3.params 0x008 0x101#32 :: [] ∧ s3.rst = false ∧ s3.powerLost = false ∧ s3.phase = .error) ∧
    ([0#32, 6#32, 0x101#32].all fun w => decide (w ≠ 1#32 ∧ w ≠ 2#32 ∧ w ≠ 3#32 ∧ w ≠ 4#32 ∧ w ≠ 5#32)) = true := by decide

/-- A file of 124 bytes and version 3.0, the least accepted: AES, Twofish, and both bits with PreferAES. -/
theorem witness_ParseHeaderSelectsTheCipher :
    let s (flags : Word) : State := { turn (sEmpty flags 0x00030000#32 0#32) .parse with fileLen := 124#32 }
    let s3 := { s 10#32 with params := { Params.default with bothCiphers := .preferAES } }
    (∀ t ∈ [s 2#32, s 8#32, s3], t.agent = .engine ∧ t.op = .parse ∧ 124 ≤ t.fileLen.toNat ∧
      t.hdrWord 0 = t.params.sig1 ∧ t.hdrWord 1 = t.params.sig2 ∧ 3 ≤ (t.hdrWord 3).toNat / 65536) ∧
    (((s 2#32).hdrWord 2).getLsbD 1 = true ∧ ((s 2#32).hdrWord 2).getLsbD 3 = false) ∧
    (((s 8#32).hdrWord 2).getLsbD 1 = false ∧ ((s 8#32).hdrWord 2).getLsbD 3 = true) ∧
    ((s3.hdrWord 2).getLsbD 1 = true ∧ (s3.hdrWord 2).getLsbD 3 = true ∧ s3.params.bothCiphers = .preferAES) := by
  decide

/-- A file of 123 bytes; each signature word bad alone; version 2.65535; no cipher bit; both bits under Reject. -/
theorem witness_ParseHeaderErrorsInOrder :
    let s (flags version : Word) : State := { turn (sEmpty flags version 0#32) .parse with fileLen := 124#32 }
    let s1 := { s 2#32 0x00030000#32 with fileLen := 123#32 }
    let s2 := { s 2#32 0x00030000#32 with mem := put (image 2#32 0x00030000#32 0#32) 0x100 [0x9AA2D902#32] }
    let s3 := { s 2#32 0x00030000#32 with mem := put (image 2#32 0x00030000#32 0#32) 0x104 [0xB54BFB64#32] }
    let s4 := s 2#32 0x0002FFFF#32
    let s5 := s 0#32 0x00030000#32
    let s6 := s 10#32 0x00030000#32
    (∀ t ∈ [s1, s2, s3, s4, s5, s6], t.agent = .engine ∧ t.op = .parse) ∧
    s1.fileLen.toNat < 124 ∧
    (∀ t ∈ [s2, s3], 124 ≤ t.fileLen.toNat ∧ ¬(t.hdrWord 0 = t.params.sig1 ∧ t.hdrWord 1 = t.params.sig2)) ∧
    (∀ t ∈ [s4, s5, s6], 124 ≤ t.fileLen.toNat ∧ t.hdrWord 0 = t.params.sig1 ∧ t.hdrWord 1 = t.params.sig2) ∧
    (s4.hdrWord 3).toNat / 65536 < 3 ∧
    (∀ t ∈ [s5, s6], 3 ≤ (t.hdrWord 3).toNat / 65536) ∧
    ((s5.hdrWord 2).getLsbD 1 = false ∧ (s5.hdrWord 2).getLsbD 3 = false) ∧
    ((s6.hdrWord 2).getLsbD 1 = true ∧ (s6.hdrWord 2).getLsbD 3 = true ∧ s6.params.bothCiphers = .reject) := by
  decide

/-- Every unexamined bit differs: flags 2 and 0xFFFFFFF7, versions 3.0 and 3.65535. -/
theorem witness_UnexaminedHeaderBitsHaveNoEffect :
    let s := turn (sEmpty 2#32 0x00030000#32 0#32) .parse
    let u := turn (sEmpty 0xFFFFFFF7#32 0x0003FFFF#32 0#32) .parse
    s.agent = .engine ∧ s.op = .parse ∧ u = { s with mem := u.mem } ∧
    u.hdrWord 0 = s.hdrWord 0 ∧ u.hdrWord 1 = s.hdrWord 1 ∧
    (u.hdrWord 2).getLsbD 1 = (s.hdrWord 2).getLsbD 1 ∧ (u.hdrWord 2).getLsbD 3 = (s.hdrWord 2).getLsbD 3 ∧
    (u.hdrWord 3).toNat / 65536 = (s.hdrWord 3).toNat / 65536 ∧
    (∃ t, exec .parseHeader s = .next t) ∧ (∃ v, exec .parseHeader u = .next v) :=
  ⟨rfl, rfl, rfl, by decide, by decide, by decide, by decide, by decide,
    exists_next (by decide), exists_next (by decide)⟩

/-- A passphrase one byte too long; one round too many; and both at their bounds (KB-7, KB-2, KB-1). -/
theorem witness_DeriveKeyStartStep :
    let s (pass rounds : Word) : State :=
      { sDerive rounds with agent := .engine, passLen := pass, params := { Params.default with maxRounds := 2#32 } }
    (∀ t ∈ [s 257#32 3#32, s 256#32 3#32, s 256#32 2#32], t.agent = .engine ∧ t.op = .derive ∧ t.kstep = .start) ∧
    (s 257#32 3#32).params.passMax.toNat < (s 257#32 3#32).passLen.toNat ∧
    ((s 256#32 3#32).passLen.toNat ≤ (s 256#32 3#32).params.passMax.toNat ∧
      (s 256#32 3#32).params.maxRounds.toNat < ((s 256#32 3#32).hdrWord 30).toNat) ∧
    ((s 256#32 2#32).passLen.toNat ≤ (s 256#32 2#32).params.passMax.toNat ∧
      ((s 256#32 2#32).hdrWord 30).toNat ≤ (s 256#32 2#32).params.maxRounds.toNat) := by decide

/-- The last round. -/
theorem witness_DeriveKeyRoundStep :
    let s := { sRounds 2#32 with agent := .engine, kdfCount := 1#32 }
    s.agent = .engine ∧ s.op = .derive ∧ s.kstep = .stretch ∧ s.kdfCount.toNat < (s.hdrWord 30).toNat := by
  decide

theorem witness_DeriveKeyFinishStep :
    let s := { sRounds 2#32 with agent := .engine, kdfCount := 2#32 }
    s.agent = .engine ∧ s.op = .derive ∧ s.kstep = .stretch ∧ s.kdfCount = s.hdrWord 30 := by decide

/-- Both bounds met with equality: PASS_LEN 256 of 256, 2 rounds of 2. -/
theorem witness_DeriveKeyComputesTheKdf :
    let s := { sDerive 2#32 with passLen := 256#32, params := { Params.default with maxRounds := 2#32 } }
    s.op = .derive ∧ s.kstep = .start ∧ s.sched = [] ∧ s.rst = false ∧ s.clk = true ∧ s.powerLost = false ∧
    s.passLen.toNat ≤ s.params.passMax.toNat ∧ (s.hdrWord 30).toNat ≤ s.params.maxRounds.toNat := by decide

theorem witness_DerivationInProgressIsKept :
    SessionInv (sRounds 2#32) ∧ DerivationInv (sRounds 2#32) ∧ ∃ t, step (sRounds 2#32) = .next t :=
  ⟨session_sRounds, derivation_sRounds, exists_next (by decide)⟩

theorem witness_FinishedKeyIsTheKdfUnderAnyInterleaving :
    SessionInv (sRounds 0#32) ∧ DerivationInv (sRounds 0#32) ∧ (sRounds 0#32).phase = .header ∧
    ∃ t, step (sRounds 0#32) = .next t ∧ t.phase = .keyed := by
  refine ⟨session_sRounds_zero, derivation_sRounds_zero, rfl, ?_⟩
  obtain ⟨t, h, ht⟩ := exists_next_with (fun t => decide (t.phase = .keyed)) (o := step (sRounds 0#32)) (by decide)
  exact ⟨t, h, of_decide_eq_true ht⟩

/-- Two states that differ in the flags, the bytes after the passphrase, DIN and CTRL. -/
theorem witness_KeyDependsOnTheKdfInputsAlone :
    let s := sDerive 2#32
    let u := { sDerive 2#32 with irqEn := true, din := ⟨1, 2, 3, 4⟩, mem := put (image 7#32 0x00030009#32 2#32) 0x208 [5#32] }
    (s.op = .derive ∧ s.kstep = .start ∧ s.sched = [] ∧ s.rst = false ∧ s.clk = true ∧ s.powerLost = false) ∧
    (u.op = .derive ∧ u.kstep = .start ∧ u.sched = [] ∧ u.rst = false ∧ u.clk = true ∧ u.powerLost = false) ∧
    s.passLen.toNat ≤ s.params.passMax.toNat ∧ u.passLen.toNat ≤ u.params.passMax.toNat ∧
    (s.hdrWord 30).toNat ≤ s.params.maxRounds.toNat ∧ (u.hdrWord 30).toNat ≤ u.params.maxRounds.toNat ∧
    s.passBytes s.passLen.toNat = u.passBytes u.passLen.toNat ∧ s.seed16 = u.seed16 ∧ s.seed32 = u.seed32 ∧
    s.hdrWord 30 = u.hdrWord 30 := by decide

/-- An empty body, and one block (BI-1, BI-4). -/
theorem witness_BodyInitLoadsTheIv :
    ∀ n ∈ [124, 140],
      let s := { turn sKeyed .init with fileLen := BitVec.ofNat 32 n }
      s.agent = .engine ∧ s.op = .init ∧ s.cipher ≠ .twofish ∧ 124 ≤ s.fileLen.toNat ∧ (s.fileLen.toNat - 124) % 16 = 0 := by
  decide

/-- Twofish; and 1 and 15 bytes of body (BI-2, BI-3). -/
theorem witness_BodyInitErrorsInOrder :
    (let s := { turn sKeyed .init with cipher := .twofish }
     s.agent = .engine ∧ s.op = .init ∧ s.cipher = .twofish) ∧
    ∀ n ∈ [125, 139],
      let s := { turn sKeyed .init with fileLen := BitVec.ofNat 32 n }
      s.agent = .engine ∧ s.op = .init ∧ s.cipher ≠ .twofish ∧ 124 ≤ s.fileLen.toNat ∧
        (s.fileLen.toNat - 124) % 16 ≠ 0 := by decide

/-- The last block. -/
theorem witness_DecryptBlockDecryptsAndChains :
    let s := { turn sBody .decrypt with blocksLeft := 1#32 }
    s.agent = .engine ∧ s.op = .decrypt ∧ 0 < s.blocksLeft.toNat := by decide

/-- As many blocks as are left, and an input after them. -/
theorem witness_DecryptingBlockByBlockIsCbc :
    let cs := [Block.zero, (sDerive 2#32).seed16]
    let s := { sBody with sched := decryptAllInputs sBody.params cs ++ [Event.engine] }
    s.phase = .body ∧ s.op = .none ∧ s.rst = false ∧ s.clk = true ∧ s.powerLost = false ∧
    s.sched = decryptAllInputs s.params cs ++ [Event.engine] ∧ cs ≠ [] ∧ cs.length ≤ s.blocksLeft.toNat := by decide

/-- An engine step that raises, and a request that raises. -/
theorem witness_ErrorsArePrecise :
    (∃ t, exec .parseHeader (turn (sEmpty 0#32 0x00030004#32 0#32) .parse) = .next t ∧ t.phase = .error) ∧
    (turn (sEmpty 0#32 0x00030004#32 0#32) .parse).phase ≠ .error ∧
    (∃ t, exec .parseHeader sKeyed = .next t ∧ t.phase = .error) ∧ sKeyed.phase ≠ .error := by
  refine ⟨?_, nofun, ?_, nofun⟩
  · obtain ⟨t, h, ht⟩ := exists_next_with (fun t => decide (t.phase = .error))
      (o := exec .parseHeader (turn (sEmpty 0#32 0x00030004#32 0#32) .parse)) (by decide)
    exact ⟨t, h, of_decide_eq_true ht⟩
  · obtain ⟨t, h, ht⟩ := exists_next_with (fun t => decide (t.phase = .error)) (o := exec .parseHeader sKeyed)
      (by decide)
    exact ⟨t, h, of_decide_eq_true ht⟩

/-- A dropped command; CLEAR; and the assertion of `rst`. -/
theorem witness_FirstErrorIsKeptUntilClearOrReset :
    (∀ e ∈ [writeAt Params.default 0x008 2#32, writeAt Params.default 0x008 1#32, Event.rst true],
      (with1 sError e).phase = .error ∧ (with1 sError e).op = .none) ∧
    (∃ t, step (with1 sError (writeAt Params.default 0x008 2#32)) = .next t) ∧
    (with1 sError (writeAt Params.default 0x008 2#32)).endsSession = false ∧
    (∃ t, step (with1 sError (writeAt Params.default 0x008 1#32)) = .next t) ∧
    (with1 sError (writeAt Params.default 0x008 1#32)).endsSession = true ∧
    (∃ t, step (with1 sError (.rst true)) = .next t) ∧ (with1 sError (.rst true)).endsSession = true :=
  ⟨by decide, exists_next (by decide), by decide, exists_next (by decide),
    by decide, exists_next (by decide), by decide⟩

theorem witness_PhaseMovesForward :
    SessionInv (sRounds 0#32) ∧ (∃ t, step (sRounds 0#32) = .next t) ∧ (sRounds 0#32).endsSession = false :=
  ⟨session_sRounds_zero, exists_next (by decide), rfl⟩

/-- A write to HDR[30] in HEADER. -/
theorem witness_HeaderIsImmutableOnceParsed :
    let s := with1 (sHeader 2#32) (writeAt Params.default 0x178 9#32)
    s.phase ≠ .empty ∧ s.endsSession = false ∧ ∃ t, step s = .next t :=
  ⟨nofun, by decide, exists_next (by decide)⟩

/-- A write to PASS[0] while DERIVE_KEY runs. -/
theorem witness_InputsOfARunningCommandAreHeld :
    let s := with1 (sDerive 2#32) (writeAt Params.default 0x200 9#32)
    s.op ≠ .none ∧ s.endsSession = false ∧ ∃ t, step s = .next t :=
  ⟨nofun, by decide, exists_next (by decide)⟩

/-- A request and an engine step. -/
theorem witness_CommandsKeepTheirInputs :
    Instr.bodyInit ≠ .clear ∧ (∃ t, exec .bodyInit sKeyed = .next t) ∧ ∃ t, exec .bodyInit (turn sKeyed .init) = .next t :=
  ⟨nofun, exists_next (by decide), exists_next (by decide)⟩

/-- The last word of PASS, and the first register. -/
theorem witness_ReadsReturnTheRegisterAndChangeNothing :
    let s1 := with1 (sDerive 2#32) (readAt Params.default (Reg.pass 63).offset)
    let s2 := with1 (sDerive 2#32) (readAt Params.default Reg.id.offset)
    (s1.rst = false ∧ s1.powerLost = false ∧ s1.params.legal = true ∧
      (∀ k, Reg.pass 63 = .pass k → k < s1.params.passMax.toNat / 4) ∧
      s1.sched = readAt s1.params (Reg.pass 63).offset :: []) ∧
    (s2.rst = false ∧ s2.powerLost = false ∧ s2.params.legal = true ∧
      (∀ k, Reg.id = .pass k → k < s2.params.passMax.toNat / 4) ∧ s2.sched = readAt s2.params Reg.id.offset :: []) :=
  ⟨⟨rfl, rfl, by decide, by rintro k ⟨⟩; decide, rfl⟩, ⟨rfl, rfl, by decide, nofun, rfl⟩⟩

/-- The last byte of the window, a half-word, and a misaligned word. -/
theorem witness_BadAccessesGetAnErrorResponse :
    ∀ c ∈ [((4095, 1) : Nat × Nat), (0x00C, 2), (0x00E, 4)],
      let s1 := with1 sBody (.host (.read (Params.default.base + c.1) c.2))
      let s2 := with1 sBody (.host (.write (Params.default.base + c.1) c.2 7#32))
      c.1 < 4096 ∧ (c.2 ≠ 4 ∨ c.1 % 4 ≠ 0) ∧
      s1.rst = false ∧ s1.powerLost = false ∧ s1.sched = .host (.read (s1.params.base + c.1) c.2) :: [] ∧
      s2.rst = false ∧ s2.powerLost = false ∧ s2.sched = .host (.write (s2.params.base + c.1) c.2 7#32) :: [] := by
  decide

/-- The first and last offset of each unmapped range. -/
theorem witness_UnmappedOffsetsReadZeroAndIgnoreWrites :
    ∀ off ∈ [0x03C, 0x070, 0x07C, 0x0A0, 0x0FC, 0x17C, 0x1FC, 0x300, 0xFFC],
      let s1 := with1 sBody (readAt Params.default off)
      let s2 := with1 sBody (writeAt Params.default off 7#32)
      off % 4 = 0 ∧
      (off = 0x03C ∨ (0x070 ≤ off ∧ off < 0x080) ∨ (0x0A0 ≤ off ∧ off < 0x100) ∨ (0x17C ≤ off ∧ off < 0x200) ∨
        (0x200 + s1.params.passMax.toNat ≤ off ∧ off < 4096)) ∧
      (s1.rst = false ∧ s1.powerLost = false ∧ s1.params.legal = true ∧ s1.sched = readAt s1.params off :: []) ∧
      (s2.rst = false ∧ s2.powerLost = false ∧ s2.params.legal = true ∧ s2.sched = writeAt s2.params off 7#32 :: []) := by
  decide

/-- A single register and the last word of each read-only range. -/
theorem witness_WritesToReadOnlyRegistersAreIgnored :
    ∀ r ∈ [Reg.sig2Exp, .dout 3, .chain 3, .key 7],
      let s := with1 sBody (writeAt Params.default r.offset 7#32)
      s.rst = false ∧ s.powerLost = false ∧ s.sched = writeAt s.params r.offset 7#32 :: [] ∧
      (r ∈ [Reg.id, .errCode, .errInfo0, .errInfo1, .kdfCount, .blocksLeft, .maxRounds, .passMax, .sig1Exp, .sig2Exp] ∨
        (∃ i, r = .dout i) ∨ (∃ i, r = .chain i) ∨ (∃ i, r = .key i)) := by decide

theorem witness_ControlAndStatusWritesAreNeverDropped :
    ∀ off ∈ [0x004, 0x00C],
      let s := with1 (sDerive 2#32) (writeAt Params.default off 7#32)
      s.rst = false ∧ s.powerLost = false ∧ s.sched = writeAt s.params off 7#32 :: [] := by decide

/-- HDR[0] and HDR[30]. -/
theorem witness_HeaderWriteIsTakenAndReadBack :
    ∀ k ∈ [(0 : Fin 31), 30],
      let s := with1 (sEmpty 2#32 0x00030004#32 0#32) (writeAt Params.default (0x100 + 4 * k.val) 7#32)
      s.rst = false ∧ s.powerLost = false ∧ Memory.wf s.mem = true ∧ s.op = .none ∧ s.phase = .empty ∧
      s.sched = writeAt s.params (0x100 + 4 * k.val) 7#32 :: [] := by decide

/-- PASS[0] and PASS[63], in ERROR. -/
theorem witness_PassphraseWriteIsTakenAndReadBack :
    ∀ k ∈ [0, 63],
      let s := with1 sError (writeAt Params.default (0x200 + 4 * k) 7#32)
      s.rst = false ∧ s.powerLost = false ∧ Memory.wf s.mem = true ∧ s.params.legal = true ∧
      k < s.params.passMax.toNat / 4 ∧ s.op = .none ∧ s.sched = writeAt s.params (0x200 + 4 * k) 7#32 :: [] := by
  decide

/-- FILE_LEN in EMPTY; PASS_LEN and DIN[3] in ERROR. -/
theorem witness_LengthAndBlockWritesAreTaken :
    (let s := with1 State.reset (writeAt Params.default 0x01C 7#32)
     s.rst = false ∧ s.powerLost = false ∧ s.op = .none ∧ s.phase = .empty ∧ s.sched = writeAt s.params 0x01C 7#32 :: []) ∧
    (let s := with1 sError (writeAt Params.default 0x020 7#32)
     s.rst = false ∧ s.powerLost = false ∧ s.op = .none ∧ s.sched = writeAt s.params 0x020 7#32 :: []) ∧
    (let s := with1 sError (writeAt Params.default (0x040 + 4 * (3 : Fin 4).val) 7#32)
     s.rst = false ∧ s.powerLost = false ∧ s.op = .none ∧
      s.sched = writeAt s.params (0x040 + 4 * (3 : Fin 4).val) 7#32 :: []) := by decide

/-- HDR[30] and FILE_LEN in an idle HEADER phase; PASS[63], DIN[0] and PASS_LEN while DERIVE_KEY runs. -/
theorem witness_WritesToHeldInputsAreDropped :
    (∀ r ∈ [Reg.hdr 30, .fileLen],
      let s := with1 (sHeader 2#32) (writeAt Params.default r.offset 7#32)
      s.rst = false ∧ s.powerLost = false ∧ s.params.legal = true ∧ s.sched = writeAt s.params r.offset 7#32 :: [] ∧
      (r = .fileLen ∨ ∃ k, r = .hdr k) ∧ s.phase ≠ .empty) ∧
    (∀ r ∈ [Reg.pass 63, .din 0, .passLen],
      let s := with1 (sDerive 2#32) (writeAt Params.default r.offset 7#32)
      s.rst = false ∧ s.powerLost = false ∧ s.params.legal = true ∧ s.sched = writeAt s.params r.offset 7#32 :: [] ∧
      s.op ≠ .none) ∧ 63 < sBody.params.passMax.toNat / 4 := by decide

theorem witness_ResetInputResetsAndIgnoresAccesses :
    (with1 sBody (.rst true)).sched = .rst true :: [] ∧
    (with1 State.reset (.rst false)).sched = .rst false :: [] ∧
    ∀ c ∈ [((0, 4) : Nat × Nat), (4095, 1)],
      let s1 := { with1 State.reset (.host (.read (Params.default.base + c.1) c.2)) with rst := true }
      let s2 := { with1 State.reset (.host (.write (Params.default.base + c.1) c.2 7#32)) with rst := true }
      c.1 < 4096 ∧
      s1.rst = true ∧ s1.powerLost = false ∧ s1.sched = .host (.read (s1.params.base + c.1) c.2) :: [] ∧
      s2.rst = true ∧ s2.powerLost = false ∧ s2.sched = .host (.write (s2.params.base + c.1) c.2 7#32) :: [] := by
  decide

theorem witness_InterruptFollowsDoneAndEnable : (2#32 : Word).getLsbD 1 = true := rfl

theorem witness_ConstantRegistersNeverChange :
    ∃ t, step (with1 sBody (writeAt Params.default 0x02C 9#32)) = .next t := exists_next (by decide)

/-- A write of the last byte of HDR over a loaded header. -/
theorem witness_MemoryStaysCanonical :
    let s := with1 (sEmpty 2#32 0x00030004#32 5#32) (writeAt Params.default 0x178 0#32)
    MemoryInv s ∧ ∃ t, step s = .next t :=
  ⟨⟨by decide, by decide⟩, exists_next (by decide)⟩

theorem witness_SessionInvariantIsKept :
    SessionInv (sRounds 2#32) ∧ ∃ t, step (sRounds 2#32) = .next t :=
  ⟨session_sRounds, exists_next (by decide)⟩

/-- DERIVE_KEY between its rounds, and PARSE_HEADER. -/
theorem witness_RunningCommandsEnd :
    (SessionInv (sRounds 2#32) ∧ (sRounds 2#32).op ≠ .none ∧ (sRounds 2#32).sched = [] ∧ (sRounds 2#32).rst = false ∧
      (sRounds 2#32).clk = true ∧ (sRounds 2#32).powerLost = false) ∧
    (let s := { sEmpty 2#32 0x00030004#32 0#32 with op := .parse }
     SessionInv s ∧ s.op ≠ .none ∧ s.sched = [] ∧ s.rst = false ∧ s.clk = true ∧ s.powerLost = false) :=
  ⟨⟨session_sRounds, nofun, rfl, rfl, rfl, rfl⟩, ⟨by constructor <;> decide, nofun, rfl, rfl, rfl, rfl⟩⟩

end Sys2Proof.Tests
end

section
/-! The state's invariants (10_state.md): what the commands leave alone, what one change and one step write, and from these that the
memory's form and the session's invariant are kept. -/

namespace Sys2Proof.Machine

/-! ## What the commands leave alone -/

/-- `t` has the parameters, the host's inputs, the pins and the model's own fields of `s`. -/
structure KeepsInputs (s t : State) : Prop where
  params : t.params = s.params
  irqEn : t.irqEn = s.irqEn
  fileLen : t.fileLen = s.fileLen
  passLen : t.passLen = s.passLen
  din : t.din = s.din
  mem : t.mem = s.mem
  rst : t.rst = s.rst
  clk : t.clk = s.clk
  powerLost : t.powerLost = s.powerLost
  sched : t.sched = s.sched
  agent : t.agent = s.agent
  resp : t.resp = s.resp

theorem KeepsInputs.refl (s : State) : KeepsInputs s s := by constructor <;> rfl

theorem keepsInputs_dropWrite (s : State) : KeepsInputs s s.dropWrite := by constructor <;> rfl

theorem keepsInputs_raise (s : State) (e : ErrCode) (i0 i1 : Word) : KeepsInputs s (s.raise e i0 i1) := by
  constructor <;> rfl

theorem keepsInputs_accept (s : State) (i : Instr) : KeepsInputs s (s.accept i) := by constructor <;> rfl

theorem keepsInputs_request (s : State) (i : Instr) : KeepsInputs s (s.request i) := by
  obtain ⟨-, h⟩ | ⟨-, -, h⟩ | ⟨-, -, h⟩ := s.request_cases i <;> rw [h]
  · exact keepsInputs_dropWrite s
  · exact keepsInputs_accept s i
  · exact keepsInputs_raise s _ _ _

theorem keepsInputs_parseStep (s : State) : KeepsInputs s (parseStep s) := by
  obtain ⟨e, i0, i1, h, -⟩ | ⟨c, h⟩ := parseStep_shape s <;> rw [h]
  · exact keepsInputs_raise s e i0 i1
  · constructor <;> rfl

theorem keepsInputs_deriveStep (s : State) : KeepsInputs s (deriveStep s) := by
  obtain ⟨e, i0, i1, h, -⟩ | ⟨l, r, c, h⟩ | h | h | h := deriveStep_shape s <;> rw [h]
  · exact keepsInputs_raise s e i0 i1
  · constructor <;> rfl
  · constructor <;> rfl
  · constructor <;> rfl
  · exact .refl s

theorem keepsInputs_initStep (s : State) : KeepsInputs s (initStep s) := by
  obtain ⟨e, i0, i1, h, -⟩ | ⟨c, b, h⟩ := initStep_shape s <;> rw [h]
  · exact keepsInputs_raise s e i0 i1
  · constructor <;> rfl

theorem keepsInputs_decryptStep (s : State) : KeepsInputs s (decryptStep s) := by constructor <;> rfl

/-- A command other than CLEAR, as a request or as an engine step, keeps the inputs. -/
theorem keepsInputs_exec {i : Instr} {s t : State} (hi : i ≠ .clear) (h : exec i s = .next t) : KeepsInputs s t := by
  obtain ⟨hc, -⟩ | ⟨-, -, -, he⟩ | ⟨-, -, he⟩ := exec_cases i s
  · exact absurd hc hi
  · obtain ⟨-, he⟩ | ⟨-, he⟩ | ⟨-, he⟩ | ⟨-, he⟩ := he <;> rw [he] at h <;> cases h
    · exact keepsInputs_parseStep s
    · exact keepsInputs_deriveStep s
    · exact keepsInputs_initStep s
    · exact keepsInputs_decryptStep s
  · rw [he] at h; cases h
    exact keepsInputs_request s i

/-! ## What one change and one step write -/

/-- What a step can do to the parameters (nothing), the inputs of a session and the windows: only an end of the session (`e`) or a
host write to an idle block touches them (43_control.md R101, R106). -/
structure Writes (e : Bool) (s t : State) : Prop where
  params : t.params = s.params
  fileLen : t.fileLen = s.fileLen ∨ e = true ∨ (s.op = .none ∧ s.phase = .empty)
  passLen : t.passLen = s.passLen ∨ e = true ∨ s.op = .none
  din : t.din = s.din ∨ e = true ∨ s.op = .none
  mem : t.mem = s.mem ∨ (e = true ∧ t.mem = []) ∨
    (s.op = .none ∧ s.phase = .empty ∧
      ∃ (k : Fin 31) (v : Word), t.mem = Memory.writeWord s.mem (hdrBase + 4 * k.val) v) ∨
    (s.op = .none ∧ ∃ (k : Nat) (v : Word), k < s.params.passMax.toNat / 4 ∧
      t.mem = Memory.writeWord s.mem (passBase + 4 * k) v)

theorem KeepsInputs.writes {e : Bool} {s t : State} (h : KeepsInputs s t) : Writes e s t :=
  ⟨h.params, .inl h.fileLen, .inl h.passLen, .inl h.din, .inl h.mem⟩

theorem Change.writes {e : Bool} {s t : State} (c : Change e s t) : Writes e s t := by
  cases c with
  | keep => exact (KeepsInputs.refl s).writes
  | drop => exact (keepsInputs_dropWrite s).writes
  | status v => exact ⟨rfl, .inl rfl, .inl rfl, .inl rfl, .inl rfl⟩
  | ctrl v => exact ⟨rfl, .inl rfl, .inl rfl, .inl rfl, .inl rfl⟩
  | fileLen v ho hp => exact ⟨rfl, .inr (.inr ⟨ho, hp⟩), .inl rfl, .inl rfl, .inl rfl⟩
  | hdr k v ho hp => exact ⟨rfl, .inl rfl, .inl rfl, .inl rfl, .inr (.inr (.inl ⟨ho, hp, k, v, rfl⟩))⟩
  | passLen v ho => exact ⟨rfl, .inl rfl, .inr (.inr ho), .inl rfl, .inl rfl⟩
  | din i v ho => exact ⟨rfl, .inl rfl, .inl rfl, .inr (.inr ho), .inl rfl⟩
  | pass k v ho hk => exact ⟨rfl, .inl rfl, .inl rfl, .inl rfl, .inr (.inr (.inr ⟨ho, k, v, hk, rfl⟩))⟩
  | clear he => exact ⟨rfl, .inr (.inl he), .inr (.inl he), .inr (.inl he), .inr (.inl ⟨he, rfl⟩)⟩
  | illegal w ho hp => exact (keepsInputs_raise s _ _ _).writes
  | sequence i ho hp hl => exact (keepsInputs_raise s _ _ _).writes
  | accept i hi ho hl => exact (keepsInputs_accept s i).writes
  | parse ho => exact (keepsInputs_parseStep s).writes
  | derive ho => exact (keepsInputs_deriveStep s).writes
  | init ho => exact (keepsInputs_initStep s).writes
  | decrypt ho => exact (keepsInputs_decryptStep s).writes

/-- Every step is a `Change` of the state whose own fields moved on, or an input on a pin; so it writes no more than they do. -/
theorem step_writes {s t : State} (h : step s = .next t) : Writes s.endsSession s t := by
  obtain ⟨q, a, r, c, -⟩ | ⟨q, l, rfl, hl⟩ | ⟨q, b, rfl⟩ | ⟨q, rfl⟩ := step_cases h
  · obtain ⟨hp, hf, hl, hd, hm⟩ := c.writes
    exact ⟨hp, hf, hl, hd, hm⟩
  · cases l with
    | false => exact ⟨rfl, .inl rfl, .inl rfl, .inl rfl, .inl rfl⟩
    | true =>
      have he := hl rfl
      exact ⟨rfl, .inr (.inl he), .inr (.inl he), .inr (.inl he), .inr (.inl ⟨he, rfl⟩)⟩
  · exact ⟨rfl, .inl rfl, .inl rfl, .inl rfl, .inl rfl⟩
  · exact ⟨rfl, .inl rfl, .inl rfl, .inl rfl, .inl rfl⟩

/-! ## The memory's invariant -/

theorem memoryInv_nil {s : State} (h : s.mem = []) : MemoryInv s :=
  ⟨by rw [h]; rfl, by simp [h]⟩

/-- A word written inside the windows keeps the memory's invariant. -/
theorem MemoryInv.writeWord {s t : State} (h : MemoryInv s) (hp : t.params = s.params) {a : Nat} {v : Word}
    (hm : t.mem = Memory.writeWord s.mem a v) (ha : ∀ x, a ≤ x → x < a + 4 → inWindows s.params x = true) :
    MemoryInv t := by
  refine ⟨by rw [hm]; exact Memory.wf_writeWord h.canonical a v, fun c hc => ?_⟩
  rw [hm] at hc
  rw [hp]
  obtain hc | ⟨hlo, hhi⟩ := Memory.mem_writeWord hc
  · exact h.windows c hc
  · exact ha c.1 hlo hhi

/-- The four bytes of HDR[k] lie in the HDR window (10_state.md R34). -/
theorem inWindows_hdr (p : Params) (k : Fin 31) {x : Nat} (hlo : hdrBase + 4 * k.val ≤ x)
    (hhi : x < hdrBase + 4 * k.val + 4) : inWindows p x = true := by
  simp only [hdrBase] at hlo hhi
  exact (inWindows_iff p x).2 (.inl (by omega))

/-- The four bytes of a word PASS[k] that exists lie in the PASS window (10_state.md R35). -/
theorem inWindows_pass (p : Params) {k x : Nat} (hk : k < p.passMax.toNat / 4) (hlo : passBase + 4 * k ≤ x)
    (hhi : x < passBase + 4 * k + 4) : inWindows p x = true := by
  simp only [passBase] at hlo hhi
  exact (inWindows_iff p x).2 (.inr (by omega))

/-- Settles O50: a step keeps the memory, empties it, or writes one word inside a window. -/
theorem memoryStaysCanonical : Obligations.MemoryStaysCanonical := by
  intro s t hs h
  have w := step_writes h
  obtain hm | ⟨-, hm⟩ | ⟨-, -, k, v, hm⟩ | ⟨-, k, v, hk, hm⟩ := w.mem
  · exact ⟨by rw [hm]; exact hs.canonical, by rw [hm, w.params]; exact hs.windows⟩
  · exact memoryInv_nil hm
  · exact hs.writeWord w.params hm fun x => inWindows_hdr s.params k
  · exact hs.writeWord w.params hm fun x => inWindows_pass s.params hk

/-! ## The session's invariant

Error entry, CLEAR and reset establish it whatever came before; a host write that is taken finds the block idle, so the clauses
about a running command do not speak of it; and each engine step is taken in the phase its command runs in. -/

/-- Error entry establishes the invariant (60_exceptions.md R125), with any code that rules raise. -/
theorem sessionInv_raise {s : State} (hr : s.rst = false) (e : ErrCode) (he : e ≠ .none) (hd : e ≠ .decryptionFailed)
    (i0 i1 : Word) : SessionInv (s.raise e i0 i1) := by
  constructor <;> simp [he, hd, hr, Phase.hasKey, Phase.parsed]

/-- CLEAR establishes the invariant (43_control.md R103). -/
theorem sessionInv_clearSession {s : State} (hr : s.rst = false) : SessionInv s.clearSession := by
  constructor <;> simp [hr, Phase.hasKey, Phase.parsed]

/-- So does the assertion of `rst` (70_reset_and_hazards.md R139). -/
theorem sessionInv_setRst_true (s : State) : SessionInv (s.setRst true) := by
  constructor <;> simp [State.setRst, Phase.hasKey, Phase.parsed]

/-- The rounds run only in DERIVE_KEY, so an idle block or another command is at START (10_state.md R38). -/
theorem SessionInv.kstep_start {s : State} (h : SessionInv s) (ho : s.op ≠ .derive) : s.kstep = .start := by
  cases hk : s.kstep with
  | start => rfl
  | stretch => exact absurd (h.stretchInDerive hk) ho

/-- The model's own fields have no part in the invariant. -/
theorem SessionInv.moved {s : State} (h : SessionInv s) (q : List Event) (a : Agent) (r : Option Response) :
    SessionInv (s.moved q a r) :=
  { h with heldInReset := fun hr => congrArg (fun u => u.moved q a r) (h.heldInReset hr) }

theorem SessionInv.setRst_false {s : State} (h : SessionInv s) : SessionInv (s.setRst false) :=
  { h with heldInReset := nofun }

theorem SessionInv.clock {s : State} (h : SessionInv s) (b : Bool) : SessionInv { s with clk := b } :=
  { h with heldInReset := fun hr => congrArg (fun u => { u with clk := b }) (h.heldInReset hr) }

theorem SessionInv.powerOff {s : State} (h : SessionInv s) : SessionInv { s with powerLost := true } :=
  { h with heldInReset := fun hr => congrArg (fun u => { u with powerLost := true }) (h.heldInReset hr) }

/-! Host writes. -/

section HostWrites

variable {s : State}

theorem SessionInv.dropWrite (h : SessionInv s) (hr : s.rst = false) : SessionInv s.dropWrite :=
  { h with heldInReset := fun hr' => absurd hr' (by simp [hr]) }

/-- DONE is only cleared (10_state.md R18). -/
theorem SessionInv.writeStatus (h : SessionInv s) (hr : s.rst = false) (v : Word) : SessionInv (s.writeStatus v) :=
  { h with
    busyNotDone := fun ho => by simp [h.busyNotDone ho]
    heldInReset := fun hr' => absurd hr' (by simp [hr]) }

theorem SessionInv.writeCtrl (h : SessionInv s) (hr : s.rst = false) (v : Word) : SessionInv (s.writeCtrl v) :=
  { h with heldInReset := fun hr' => absurd hr' (by simp [hr]) }

/-- FILE_LEN is written in EMPTY, where no header is parsed yet. -/
theorem SessionInv.setFileLen (h : SessionInv s) (hr : s.rst = false) (hp : s.phase = .empty) (v : Word) :
    SessionInv { s with fileLen := v } :=
  { h with
    headerValid := fun hp' => absurd hp' (by simp [hp, Phase.parsed])
    bodyWhole := fun hp' => absurd hp' (by simp [hp])
    heldInReset := fun hr' => absurd hr' (by simp [hr]) }

/-- PASS_LEN is written while no derivation runs. -/
theorem SessionInv.setPassLen (h : SessionInv s) (hr : s.rst = false) (ho : s.op = .none) (v : Word) :
    SessionInv { s with passLen := v } :=
  { h with
    derivationBounded := fun hk => absurd (h.stretchInDerive hk) (by simp [ho])
    heldInReset := fun hr' => absurd hr' (by simp [hr]) }

theorem SessionInv.setDin (h : SessionInv s) (hr : s.rst = false) (d : Words4) : SessionInv { s with din := d } :=
  { h with heldInReset := fun hr' => absurd hr' (by simp [hr]) }

/-- The windows matter to the invariant only by the header's words: while idle a memory with the same ones can take their place,
and in EMPTY any memory can. -/
theorem SessionInv.setMem (h : SessionInv s) (hr : s.rst = false) (ho : s.op = .none) {m : Memory}
    (hm : s.phase = .empty ∨ ∀ k < 31, State.hdrWord { s with mem := m } k = s.hdrWord k) :
    SessionInv { s with mem := m } :=
  { h with
    derivationBounded := fun hk => absurd (h.stretchInDerive hk) (by simp [ho])
    countAfter := fun hp' => by
      obtain hp | hm := hm
      · simp [hp, Phase.hasKey] at hp'
      · simpa only [State.hdrRounds, hm 30 (by decide)] using h.countAfter hp'
    headerValid := fun hp' => by
      obtain hp | hm := hm
      · simp [hp, Phase.parsed] at hp'
      · simpa only [State.hdrSig1, State.hdrSig2, State.hdrVersion, State.hdrFlags, hm 0 (by decide), hm 1 (by decide),
          hm 2 (by decide), hm 3 (by decide)] using h.headerValid hp'
    heldInReset := fun hr' => absurd hr' (by simp [hr]) }

/-- A write to PASS leaves the header's words: the windows do not overlap (10_state.md R14). -/
theorem hdrWord_of_pass_write (s : State) (j : Nat) (v : Word) {k : Nat} (hk : k < 31) :
    State.hdrWord { s with mem := Memory.writeWord s.mem (passBase + 4 * j) v } k = s.hdrWord k :=
  congrArg Quad.toWordLE (readQuad_hdr_of_pass_write s.mem v hk)

/-- An accepted request is of a command in its phase (43_control.md R99, R100), and starts at KSTEP START. -/
theorem SessionInv.accept (h : SessionInv s) (hr : s.rst = false) {i : Instr} (ho : s.op = .none)
    (hl : s.legal i = true) : SessionInv (s.accept i) := by
  have hk : s.kstep = .start := h.kstep_start (by simp [ho])
  have hk' : (s.accept i).kstep = .start := by simp [hk]
  exact { h with
    parseInEmpty := fun ho' => by cases i <;> simp_all [Op.ofInstr, State.legal]
    deriveInHeader := fun ho' => by cases i <;> simp_all [Op.ofInstr, State.legal]
    initInKeyed := fun ho' => by cases i <;> simp_all [Op.ofInstr, State.legal]
    decryptInBody := fun ho' => by cases i <;> simp_all [Op.ofInstr, State.legal]
    busyNotDone := fun _ => rfl
    stretchInDerive := fun hk'' => absurd (hk'.symm.trans hk'') nofun
    halvesScrubbed := fun _ => h.halvesScrubbed hk
    derivationBounded := fun hk'' => absurd (hk'.symm.trans hk'') nofun
    countBefore := fun hp _ => h.countBefore hp hk
    heldInReset := fun hr' => absurd hr' (by simp [hr]) }

end HostWrites

/-! Engine steps. -/

section EngineSteps

variable {s : State}

/-- PARSE_HEADER, in EMPTY (40_header.md R77): a valid header takes the phase to HEADER with nothing else in the session. -/
theorem SessionInv.parseStep (h : SessionInv s) (hr : s.rst = false) (ho : s.op = .parse) : SessionInv (parseStep s) := by
  have hp : s.phase = .empty := h.parseInEmpty ho
  have hk : s.kstep = .start := h.kstep_start (by simp [ho])
  obtain ⟨-, e⟩ | ⟨-, -, e⟩ | ⟨-, -, -, -, e⟩ | ⟨-, -, -, -, -, e⟩ | ⟨c, hlen, hs1, hs2, hv, hc, hc0, e⟩ :=
    parseStep_cases s <;> rw [e]
  · exact sessionInv_raise hr .malformedHeader nofun nofun _ _
  · exact sessionInv_raise hr .badSignature nofun nofun _ _
  · exact sessionInv_raise hr .unsupportedVersion nofun nofun _ _
  · exact sessionInv_raise hr .unknownCipher nofun nofun _ _
  · exact
      { parseInEmpty := nofun, deriveInHeader := nofun, initInKeyed := nofun, decryptInBody := nofun
        busyNotDone := fun ho' => absurd rfl ho'
        errorCoded := by simpa [hp] using h.errorCoded
        noErrorNoContext := fun _ => h.noErrorNoContext (by simp [hp])
        neverDecryptionFailed := h.neverDecryptionFailed
        keyScrubbed := fun _ => h.keyScrubbed (by simp [hp, Phase.hasKey])
        bodyRegisters := fun _ => h.bodyRegisters (by simp [hp])
        stretchInDerive := fun hk' => absurd hk' (by simp [hk])
        halvesScrubbed := h.halvesScrubbed
        derivationBounded := h.derivationBounded
        countBefore := fun _ => h.countBefore (.inl hp)
        countAfter := nofun
        cipherBefore := nofun
        headerValid := fun _ => ⟨hlen, hs1, hs2, hv, hc, hc0⟩
        bodyWhole := nofun
        heldInReset := fun hr' => absurd hr' (by simp [hr]) }

/-- The start step within both bounds, in HEADER (41_kdf.md R84): the derivation is bounded from its count 0 on. -/
theorem SessionInv.deriveStart (h : SessionInv s) (hr : s.rst = false) (ho : s.op = .derive) :
    SessionInv (deriveStart s) := by
  obtain ⟨-, e⟩ | ⟨-, -, e⟩ | ⟨hl, hm, e⟩ := deriveStart_cases s <;> rw [e]
  · exact sessionInv_raise hr .passphraseTooLong nofun nofun _ _
  · exact sessionInv_raise hr .keyDerivationTooExpensive nofun nofun _ _
  · exact { h with
      stretchInDerive := fun _ => ho
      halvesScrubbed := nofun
      derivationBounded := fun _ => ⟨hl, BitVec.not_lt.1 BitVec.not_lt_zero, hm⟩
      countBefore := fun _ => nofun
      countAfter := fun hp => absurd hp (by simp [h.deriveInHeader ho, Phase.hasKey])
      heldInReset := fun hr' => absurd hr' (by simp [hr]) }

/-- The round step counts up to the header's round count and no further (41_kdf.md R85). -/
theorem SessionInv.deriveRound (h : SessionInv s) (hr : s.rst = false) (ho : s.op = .derive) (hk : s.kstep = .stretch)
    (hc : s.kdfCount < s.hdrRounds) : SessionInv (deriveRound s) := by
  obtain ⟨hl, -, hm⟩ := h.derivationBounded hk
  have hc' : s.kdfCount + 1#32 ≤ s.hdrRounds := by bv_omega
  exact { h with
    halvesScrubbed := fun hk' => absurd (hk.symm.trans hk') nofun
    derivationBounded := fun _ => ⟨hl, hc', hm⟩
    countBefore := fun _ hk' => absurd (hk.symm.trans hk') nofun
    countAfter := fun hp => absurd hp (by simp [h.deriveInHeader ho, Phase.hasKey, Machine.deriveRound])
    heldInReset := fun hr' => absurd hr' (by simp [hr, Machine.deriveRound]) }

/-- The finish step takes the phase to KEYED, with the header of HEADER still valid (41_kdf.md R86). -/
theorem SessionInv.deriveFinish (h : SessionInv s) (hr : s.rst = false) (ho : s.op = .derive)
    (hc : s.kdfCount = s.hdrRounds) : SessionInv (deriveFinish s) := by
  have hp : s.phase = .header := h.deriveInHeader ho
  exact
    { parseInEmpty := nofun, deriveInHeader := nofun, initInKeyed := nofun, decryptInBody := nofun
      busyNotDone := fun ho' => absurd rfl ho'
      errorCoded := by simpa [hp, Machine.deriveFinish] using h.errorCoded
      noErrorNoContext := fun _ => h.noErrorNoContext (by simp [hp])
      neverDecryptionFailed := h.neverDecryptionFailed
      keyScrubbed := nofun
      bodyRegisters := fun _ => h.bodyRegisters (by simp [hp])
      stretchInDerive := nofun
      halvesScrubbed := fun _ => ⟨rfl, rfl⟩
      derivationBounded := nofun
      countBefore := by simp [Machine.deriveFinish]
      countAfter := fun _ => hc
      cipherBefore := nofun
      headerValid := fun _ => h.headerValid (by simp [hp, Phase.parsed])
      bodyWhole := nofun
      heldInReset := fun hr' => absurd hr' (by simp [hr, Machine.deriveFinish]) }

/-- DERIVE_KEY, in HEADER: whichever of its steps is enabled (43_control.md R102). -/
theorem SessionInv.deriveStep (h : SessionInv s) (hr : s.rst = false) (ho : s.op = .derive) : SessionInv (deriveStep s) := by
  obtain ⟨-, e⟩ | ⟨hk, hc, e⟩ | ⟨-, hc, e⟩ | ⟨-, -, e⟩ := deriveStep_cases s <;> rw [e]
  · exact h.deriveStart hr ho
  · exact h.deriveRound hr ho hk hc
  · exact h.deriveFinish hr ho hc
  · exact h

/-- BODY_INIT, in KEYED (42_body_cbc.md R93): a parsed header selects AES or Twofish, so what passes the check is AES. -/
theorem SessionInv.initStep (h : SessionInv s) (hr : s.rst = false) (ho : s.op = .init) : SessionInv (initStep s) := by
  have hp : s.phase = .keyed := h.initInKeyed ho
  have hk : s.kstep = .start := h.kstep_start (by simp [ho])
  obtain ⟨-, e⟩ | ⟨-, -, e⟩ | ⟨hc, hb, e⟩ := initStep_cases s <;> rw [e]
  · exact sessionInv_raise hr .unsupportedCipher nofun nofun _ _
  · exact sessionInv_raise hr .truncatedCiphertext nofun nofun _ _
  · have hv := h.headerValid (by simp [hp, Phase.parsed])
    have haes : s.cipher = .aes := by
      obtain ⟨-, -, -, -, -, hc0⟩ := hv
      cases hs : s.cipher with
      | none => exact absurd hs hc0
      | aes => rfl
      | twofish => exact absurd hs hc
    exact
      { parseInEmpty := nofun, deriveInHeader := nofun, initInKeyed := nofun, decryptInBody := nofun
        busyNotDone := fun ho' => absurd rfl ho'
        errorCoded := by simpa [hp] using h.errorCoded
        noErrorNoContext := fun _ => h.noErrorNoContext (by simp [hp])
        neverDecryptionFailed := h.neverDecryptionFailed
        keyScrubbed := nofun
        bodyRegisters := fun hb' => absurd rfl hb'
        stretchInDerive := fun hk' => absurd hk' (by simp [hk])
        halvesScrubbed := h.halvesScrubbed
        derivationBounded := h.derivationBounded
        countBefore := by simp
        countAfter := fun _ => h.countAfter (by simp [hp, Phase.hasKey])
        cipherBefore := nofun
        headerValid := fun _ => hv
        bodyWhole := fun _ => ⟨haes, hb, BitVec.le_refl _⟩
        heldInReset := fun hr' => absurd hr' (by simp [hr]) }

/-- DECRYPT_BLOCK, in BODY with a block left (42_body_cbc.md R94), which it takes off the count. -/
theorem SessionInv.decryptStep (h : SessionInv s) (hr : s.rst = false) (ho : s.op = .decrypt) :
    SessionInv (decryptStep s) := by
  obtain ⟨hp, hb⟩ := h.decryptInBody ho
  have hk : s.kstep = .start := h.kstep_start (by simp [ho])
  obtain ⟨hc, hw, hle⟩ := h.bodyWhole hp
  exact { h with
    parseInEmpty := nofun, deriveInHeader := nofun, initInKeyed := nofun, decryptInBody := nofun
    busyNotDone := fun ho' => absurd rfl ho'
    bodyRegisters := fun hb' => absurd hp hb'
    stretchInDerive := fun hk' => absurd hk' (by simp [hk, Machine.decryptStep])
    bodyWhole := fun _ => ⟨hc, hw, (by bv_omega : s.blocksLeft - 1#32 ≤ s.bodyLen / 16#32)⟩
    heldInReset := fun hr' => absurd hr' (by simp [hr, Machine.decryptStep]) }

end EngineSteps

/-- Outside reset every change keeps the session's invariant. -/
theorem SessionInv.change {e : Bool} {s t : State} (h : SessionInv s) (hr : s.rst = false) (c : Change e s t) :
    SessionInv t := by
  cases c with
  | keep => exact h
  | drop => exact h.dropWrite hr
  | status v => exact h.writeStatus hr v
  | ctrl v => exact h.writeCtrl hr v
  | fileLen v ho hp => exact h.setFileLen hr hp v
  | hdr k v ho hp => exact h.setMem hr ho (.inl hp)
  | passLen v ho => exact h.setPassLen hr ho v
  | din i v ho => exact h.setDin hr _
  | pass k v ho hk => exact h.setMem hr ho (.inr fun j hj => hdrWord_of_pass_write s k v hj)
  | clear he => exact sessionInv_clearSession hr
  | illegal w ho hp => exact sessionInv_raise hr .illegalCommand nofun nofun _ _
  | sequence i ho hp hl => exact sessionInv_raise hr .sequenceError nofun nofun _ _
  | accept i hi ho hl => exact h.accept hr ho hl
  | parse ho => exact h.parseStep hr ho
  | derive ho => exact h.deriveStep hr ho
  | init ho => exact h.initStep hr ho
  | decrypt ho => exact h.decryptStep hr ho

/-- Settles O51: in reset the state is held but for the model's own fields, and outside it a step is a change or a pin's input. -/
theorem sessionInvariantIsKept : Obligations.SessionInvariantIsKept := by
  intro s t hs h
  obtain ⟨q, a, r, c, hheld⟩ | ⟨q, l, rfl, -⟩ | ⟨q, b, rfl⟩ | ⟨q, rfl⟩ := step_cases h
  · cases hr : s.rst with
    | true => rw [hheld hr]; exact hs.moved q a r
    | false => exact (hs.moved q a r).change hr c
  · cases l with
    | true => exact sessionInv_setRst_true _
    | false => exact (hs.moved q s.agent s.resp).setRst_false
  · exact (hs.moved q s.agent s.resp).clock b
  · exact (hs.moved q s.agent s.resp).powerOff

end Sys2Proof.Machine
end

section
/-! The register window: the statements that follow from what a step writes, the register map, the host's writes that are taken,
and what the registers read. -/

namespace Sys2Proof.Machine

/-! ## Reads and writes of the windows -/

/-- Settles O32: outside EMPTY a step that does not end the session writes no window but PASS, which lies above HDR. -/
theorem headerIsImmutableOnceParsed : Obligations.HeaderIsImmutableOnceParsed := by
  intro s t hp he h
  have w := step_writes h
  constructor
  · simpa [he, hp] using w.fileLen
  · intro a hlo hhi
    obtain hm | ⟨he', -⟩ | ⟨-, hp', -⟩ | ⟨-, k, v, -, hm⟩ := w.mem
    · rw [hm]
    · simp [he] at he'
    · exact absurd hp' hp
    · rw [hm]
      exact Memory.readByte_writeWord_ne s.mem v (.inl (by simp only [passBase]; omega))

/-- Settles O34: a command other than CLEAR is a request or an engine step, and each of them keeps the inputs. -/
theorem commandsKeepTheirInputs : Obligations.CommandsKeepTheirInputs := by
  intro i s t hi h
  obtain ⟨hparams, hirq, hfile, hpass, hdin, hmem, hrst, hclk, hpow, hsched, hagent, hresp⟩ := keepsInputs_exec hi h
  exact ⟨hparams, hirq, hfile, hpass, hdin, hrst, hclk, hpow, hsched, hagent, hresp, fun a => by rw [hmem]⟩

/-- Settles O47: the constant registers read the parameters alone, and no step writes them. -/
theorem constantRegistersNeverChange : Obligations.ConstantRegistersNeverChange := by
  refine ⟨fun s => ⟨rfl, rfl, rfl, rfl, rfl⟩, fun s t h => ?_⟩
  have hp : t.params = s.params := (step_writes h).params
  refine ⟨hp, fun r hr => ?_⟩
  fin_cases hr <;> simp [State.readReg, hp]

/-! ## The register map -/

/-- A register that exists is mapped at its offset (10_state.md R14, R35). -/
theorem regAt_offset (p : Params) (r : Reg) (hk : ∀ k, r = .pass k → k < p.passMax.toNat / 4) :
    regAt p r.offset = some r := by
  cases r with
  | pass k =>
    have hlt := hk k rfl
    have hidx : (passBase + 4 * k - passBase) / 4 = k := by omega
    unfold regAt Reg.offset
    simp only [hidx, if_pos hlt]
    simp (disch := simp only [passBase]; omega) only [if_neg]
  | din i => fin_cases i <;> rfl
  | dout i => fin_cases i <;> rfl
  | chain i => fin_cases i <;> rfl
  | key i => fin_cases i <;> rfl
  | hdr k => fin_cases k <;> rfl
  | _ => rfl

theorem singleReg_offset {n : Nat} {r : Reg} (h : singleReg n = some r) : r.offset = 4 * n := by
  unfold singleReg at h
  split at h <;> cases h <;> rfl

/-- A mapped aligned offset is its register's (10_state.md R14). -/
theorem offset_of_regAt {p : Params} {off : Nat} {r : Reg} (hal : off % 4 = 0) (h : regAt p off = some r) :
    r.offset = off := by
  unfold regAt at h
  split at h
  · have := singleReg_offset h; omega
  (repeat' split at h) <;> cases h <;> simp [Reg.offset, hdrBase, passBase] <;> omega

/-- Settles O3: the table by its numbers, and the map both ways. -/
theorem registerMapAgreesWithOffsets : Obligations.RegisterMapAgreesWithOffsets :=
  ⟨⟨rfl, rfl, rfl, rfl, rfl, rfl, rfl, rfl, rfl, rfl, rfl, rfl, rfl, rfl, rfl⟩, fun _ => ⟨rfl, rfl, rfl⟩, fun _ => rfl,
    fun _ => rfl, fun _ => rfl, fun p => ⟨regAt_offset p, fun _ _ => offset_of_regAt⟩⟩

/-! ## Host writes at a register's offset -/

theorem Reg.offset_mod_four (r : Reg) : r.offset % 4 = 0 := by
  cases r <;> simp only [Reg.offset, hdrBase, passBase] <;> omega

/-- A register below the PASS window lies in the block's window, whatever the parameters. -/
theorem Reg.offset_lt_windowBytes {r : Reg} (hk : ∀ k, r ≠ .pass k) : r.offset < windowBytes := by
  cases r with
  | pass k => exact absurd rfl (hk k)
  | _ => simp only [Reg.offset, hdrBase, windowBytes]; omega

/-- A host's write at the offset of a register below PASS, outside reset, as a step (20_memory.md R47). -/
theorem step_writeAt_reg {s : State} {r : Reg} {v : Word} {rest : List Event} (hk : ∀ k, r ≠ .pass k)
    (hs : s.sched = writeAt s.params r.offset v :: rest) (hr : s.rst = false) (hp : s.powerLost = false) :
    step s = writeReg r v (s.moved rest .host (some ⟨true, 0#32⟩)) :=
  step_writeReg hs (regAt_offset s.params r fun k h => absurd h (hk k)) (Reg.offset_lt_windowBytes hk) r.offset_mod_four hr hp

/-- A host's write at the offset of PASS[k], where that word exists (10_state.md R35). -/
theorem step_writeAt_pass {s : State} {k : Nat} {v : Word} {rest : List Event} (hl : s.params.legal = true)
    (hk : k < s.params.passMax.toNat / 4) (hs : s.sched = writeAt s.params (Reg.pass k).offset v :: rest)
    (hr : s.rst = false) (hp : s.powerLost = false) :
    step s = writeReg (.pass k) v (s.moved rest .host (some ⟨true, 0#32⟩)) := by
  have hex : ∀ j, Reg.pass k = .pass j → j < s.params.passMax.toNat / 4 := by
    rintro j ⟨⟩; exact hk
  exact step_writeReg hs (regAt_offset s.params _ hex) (Reg.offset_aligned hl hex).1 (Reg.offset_mod_four _) hr hp

/-! The writes that are taken: while no command runs, and for HDR and FILE_LEN before the header is locked (43_control.md
R101). -/

theorem State.writeInput_of_idle {s : State} (t : State) (ho : s.op = .none) : s.writeInput t = t := by
  simp [State.writeInput, State.busy, ho]

theorem State.writeHeaderInput_of_idle {s : State} (t : State) (ho : s.op = .none) (hp : s.phase = .empty) :
    s.writeHeaderInput t = t := by
  simp [State.writeHeaderInput, State.busy, State.headerLocked, ho, hp]

theorem writeReg_fileLen_of_idle {s : State} (v : Word) (ho : s.op = .none) (hp : s.phase = .empty) :
    writeReg .fileLen v s = .next { s with fileLen := v } := by
  rw [writeReg, State.writeHeaderInput_of_idle _ ho hp]

theorem writeReg_hdr_of_idle {s : State} (k : Fin 31) (v : Word) (ho : s.op = .none) (hp : s.phase = .empty) :
    writeReg (.hdr k) v s = .next { s with mem := Memory.writeWord s.mem (hdrBase + 4 * k.val) v } := by
  rw [writeReg, State.writeHeaderInput_of_idle _ ho hp]

theorem writeReg_passLen_of_idle {s : State} (v : Word) (ho : s.op = .none) :
    writeReg .passLen v s = .next { s with passLen := v } := by
  rw [writeReg, State.writeInput_of_idle _ ho]

theorem writeReg_din_of_idle {s : State} (i : Fin 4) (v : Word) (ho : s.op = .none) :
    writeReg (.din i) v s = .next { s with din := s.din.set i v } := by
  rw [writeReg, State.writeInput_of_idle _ ho]

theorem writeReg_pass_of_idle {s : State} (k : Nat) (v : Word) (ho : s.op = .none) :
    writeReg (.pass k) v s = .next { s with mem := Memory.writeWord s.mem (passBase + 4 * k) v } := by
  rw [writeReg, State.writeInput_of_idle _ ho]

/-- Settles O41: the new memory is the old one with the word written. -/
theorem headerWriteIsTakenAndReadBack : Obligations.HeaderWriteIsTakenAndReadBack := by
  intro s k v rest hr hp hwf ho hph hs
  refine ⟨Memory.writeWord s.mem (hdrBase + 4 * k.val) v, ?_, Memory.readWord_writeWord_same hwf _ v,
    fun a ha => Memory.readByte_writeWord_ne s.mem v ha⟩
  exact (step_writeAt_reg (r := .hdr k) nofun hs hr hp).trans (writeReg_hdr_of_idle k v ho hph)

/-- Settles O42: the new memory is the old one with the word written. -/
theorem passphraseWriteIsTakenAndReadBack : Obligations.PassphraseWriteIsTakenAndReadBack := by
  intro s k v rest hr hp hwf hl hk ho hs
  refine ⟨Memory.writeWord s.mem (passBase + 4 * k) v, ?_, Memory.readWord_writeWord_same hwf _ v,
    fun a ha => Memory.readByte_writeWord_ne s.mem v ha⟩
  exact (step_writeAt_pass hl hk hs hr hp).trans (writeReg_pass_of_idle k v ho)

/-- Settles O43: each write as a step, taken because the block is idle. -/
theorem lengthAndBlockWritesAreTaken : Obligations.LengthAndBlockWritesAreTaken := by
  intro s v rest hr hp ho
  refine ⟨fun hph hs => ?_, fun hs => ?_, fun i hs => ?_⟩
  · exact (step_writeAt_reg (r := .fileLen) nofun hs hr hp).trans (writeReg_fileLen_of_idle v ho hph)
  · exact (step_writeAt_reg (r := .passLen) nofun hs hr hp).trans (writeReg_passLen_of_idle v ho)
  · refine ⟨s.din.set i v, ?_, Words4.get_set_same s.din i v, fun j hj => Words4.get_set_ne s.din i j v hj⟩
    exact (step_writeAt_reg (r := .din i) nofun hs hr hp).trans (writeReg_din_of_idle i v ho)

/-- Settles O40: neither register's write looks at OP or PHASE. -/
theorem controlAndStatusWritesAreNeverDropped : Obligations.ControlAndStatusWritesAreNeverDropped := by
  intro s v rest hr hp
  refine ⟨fun hs => ?_, fun hs => ?_⟩
  · exact step_writeAt_reg (r := .ctrl) nofun hs hr hp
  · have clears (b c : Bool) : (b && !c) = if c then false else b := by cases c <;> simp
    rw [step_writeAt_reg (r := .status) nofun hs hr hp, ← clears, ← clears]
    rfl

/-! ## What the registers read -/

/-- Bit `i` of STATUS, by the fields' positions (10_state.md R18). -/
theorem State.statusWord_getLsbD (s : State) (i : Nat) :
    s.statusWord.getLsbD i =
      if i = 0 then s.busy else if i = 1 then s.done else if i = 2 then s.drop else if i = 3 then false
      else if i < 7 then s.phase.bits.getLsbD (i - 4) else if i = 7 then false
      else if i < 10 then s.cipher.bits.getLsbD (i - 8) else false := by
  unfold State.statusWord
  grind

/-- Settles O36: the single bits one by one, and the ranges of bits by what stands at each position of theirs. -/
theorem statusReadsItsFields : Obligations.StatusReadsItsFields := by
  intro s
  refine ⟨s.statusWord_getLsbD 0, s.statusWord_getLsbD 1, s.statusWord_getLsbD 2, s.statusWord_getLsbD 3, ?_,
    s.statusWord_getLsbD 7, ?_, ?_⟩
  · change s.statusWord.extractLsb' 4 3 = s.phase.bits
    refine BitVec.eq_of_getLsbD_eq fun i hi => ?_
    simp (disch := omega) only [BitVec.getLsbD_extractLsb', State.statusWord_getLsbD, if_pos, if_neg, hi, decide_true,
      Bool.true_and, Nat.add_sub_cancel_left]
  · change s.statusWord.extractLsb' 8 2 = s.cipher.bits
    refine BitVec.eq_of_getLsbD_eq fun i hi => ?_
    simp (disch := omega) only [BitVec.getLsbD_extractLsb', State.statusWord_getLsbD, if_pos, if_neg, hi, decide_true,
      Bool.true_and, Nat.add_sub_cancel_left]
  · change s.statusWord.extractLsb' 10 22 = 0#22
    refine BitVec.eq_of_getLsbD_eq fun i hi => ?_
    simp (disch := omega) only [BitVec.getLsbD_extractLsb', State.statusWord_getLsbD, if_neg, hi, decide_true,
      Bool.true_and, BitVec.getLsbD_zero]

@[simp] theorem Memory.readWord_nil (a : Nat) : Memory.readWord [] a = 0#32 := by
  simp [Memory.readWord, Memory.readQuad, Quad.toWordLE]

/-- Settles O46: the windows are empty after reset, and every other register is 0 field by field. -/
theorem registersReadTheirResetValues : Obligations.RegistersReadTheirResetValues := by
  refine ⟨rfl, rfl, rfl, rfl, rfl, fun r hr => ?_, rfl, rfl, rfl, rfl, rfl⟩
  cases r with
  | id => simp at hr
  | maxRounds => simp at hr
  | passMax => simp at hr
  | sig1Exp => simp at hr
  | sig2Exp => simp at hr
  | din i => fin_cases i <;> rfl
  | dout i => fin_cases i <;> rfl
  | chain i => fin_cases i <;> rfl
  | key i => fin_cases i <;> rfl
  | hdr k => simp [State.readReg, State.hdrWord, State.reset]
  | pass k => simp [State.readReg, State.reset]
  | _ => rfl

/-- Settles O49: reset is a cleared session, at START. -/
theorem resetMeetsTheInvariants : Obligations.ResetMeetsTheInvariants :=
  ⟨memoryInv_nil rfl, sessionInv_clearSession (s := State.reset) rfl, ⟨nofun, nofun⟩⟩

end Sys2Proof.Machine
end

section
/-! The host's accesses to the window (20_memory.md): how byte strings pack into its words, what a read of a register returns, and
the accesses that leave the block alone. -/

namespace Sys2Proof

/-! ## Byte strings as words -/

/-- A byte of a string is a byte of the group of four that starts at its offset. -/
theorem getElem?_of_group {l : List Byte} {g : Quad} {n : Nat} (h : (l.drop n).take 4 = g.toList) (j : Fin 4) :
    l[n + j.val]? = g.toList[j.val]? := by
  rw [← h, List.getElem?_take_of_lt j.isLt, List.getElem?_drop]

/-- Byte `j` of the group that a word unpacks to is bits `[8j+7 : 8j]` of the word (20_memory.md R50). -/
theorem Quad.ofWordLE_byte (w : Word) (j : Fin 4) : (Quad.ofWordLE w).toList[j.val]? = some (w.extractLsb' (8 * j.val) 8) := by
  rw [← Quad.toWordLE_byte, Quad.toWordLE_ofWordLE]

theorem Block.ofWords_group (w : Words4) (i : Fin 4) :
    ((Block.ofWords w).toList.drop (4 * i.val)).take 4 = (Quad.ofWordLE (w.get i)).toList := by
  fin_cases i <;> rfl

theorem Bytes32.ofWords_group (w : Words8) (i : Fin 8) :
    ((Bytes32.ofWords w).toList.drop (4 * i.val)).take 4 = (Quad.ofWordLE (w.get i)).toList := by
  fin_cases i <;> rfl

/-- Byte `4i+j` of the string that four words unpack to (20_memory.md R50). -/
theorem Block.ofWords_byte (w : Words4) (i j : Fin 4) :
    (Block.ofWords w).toList[4 * i.val + j.val]? = some ((w.get i).extractLsb' (8 * j.val) 8) :=
  (getElem?_of_group (Block.ofWords_group w i) j).trans (Quad.ofWordLE_byte _ j)

/-- Byte `4i+j` of the string that eight words unpack to (20_memory.md R50). -/
theorem Bytes32.ofWords_byte (w : Words8) (i : Fin 8) (j : Fin 4) :
    (Bytes32.ofWords w).toList[4 * i.val + j.val]? = some ((w.get i).extractLsb' (8 * j.val) 8) :=
  (getElem?_of_group (Bytes32.ofWords_group w i) j).trans (Quad.ofWordLE_byte _ j)

/-- The words that pack a 16-byte string hold its bytes, because the string is what they unpack to. -/
theorem Block.toWords_byte (x : Block) (i j : Fin 4) :
    some ((x.toWords.get i).extractLsb' (8 * j.val) 8) = x.toList[4 * i.val + j.val]? := by
  rw [← Block.ofWords_byte, Block.ofWords_toWords]

/-- The words that pack a 32-byte string hold its bytes, because the string is what they unpack to. -/
theorem Bytes32.toWords_byte (x : Bytes32) (i : Fin 8) (j : Fin 4) :
    some ((x.toWords.get i).extractLsb' (8 * j.val) 8) = x.toList[4 * i.val + j.val]? := by
  rw [← Bytes32.ofWords_byte, Bytes32.ofWords_toWords]

namespace Machine

theorem Memory.readQuad_byte (m : Memory) (a : Nat) (j : Fin 4) :
    (Memory.readQuad m a).toList[j.val]? = some (Memory.readByte m (a + j.val)) := by
  fin_cases j <;> rfl

/-- Byte `j` of the word at an offset is the memory's byte at the offset plus `j` (20_memory.md R50). -/
theorem Memory.readWord_byte (m : Memory) (a : Nat) (j : Fin 4) :
    (Memory.readWord m a).extractLsb' (8 * j.val) 8 = Memory.readByte m (a + j.val) :=
  Option.some.inj ((Quad.toWordLE_byte _ j).trans (Memory.readQuad_byte m a j))

/-- The bytes of the memory from an offset up, in offset order. -/
def Memory.bytesFrom (m : Memory) (a n : Nat) : List Byte := (List.range n).map fun i => Memory.readByte m (a + i)

theorem Memory.getElem?_bytesFrom (m : Memory) (a n b : Nat) :
    (Memory.bytesFrom m a n)[b]? = if b < n then some (Memory.readByte m (a + b)) else none := by
  unfold Memory.bytesFrom
  split <;> simp [*]

theorem State.passBytes_eq (s : State) (n : Nat) : s.passBytes n = Memory.bytesFrom s.mem 0x200 n := rfl

theorem State.seed16_toList (s : State) : s.seed16.toList = Memory.bytesFrom s.mem (0x100 + 16) 16 := rfl

theorem State.seed32_toList (s : State) : s.seed32.toList = Memory.bytesFrom s.mem (0x100 + 88) 32 := rfl

/-- Settles O4: a window's word and a packed word by their four bytes, and the operands pass, seed_16 and seed_32 as runs of the
memory's bytes. -/
theorem wordsPackBytesLittleEndian : Obligations.WordsPackBytesLittleEndian := by
  refine ⟨fun s k => Memory.readWord_byte s.mem _, Block.toWords_byte, Bytes32.toWords_byte, Block.ofWords_byte,
    Bytes32.ofWords_byte, fun s k => Memory.readWord_byte s.mem _, fun s n b => ?_, fun s b => ?_, fun s b => ?_⟩
  · rw [State.passBytes_eq, Memory.getElem?_bytesFrom]
  · rw [State.seed16_toList, Memory.getElem?_bytesFrom, if_pos b.isLt]
  · rw [State.seed32_toList, Memory.getElem?_bytesFrom, if_pos b.isLt]

/-! ## Reads of a register -/

/-- The model's own fields are no register's. -/
@[simp] theorem State.readReg_moved (s : State) (q : List Event) (a : Agent) (p : Option Response) (r : Reg) :
    (s.moved q a p).readReg r = s.readReg r := by
  cases r <;> rfl

theorem State.memRead_of_regAt {s : State} {off : Nat} {r : Reg} (h : regAt s.params off = some r) :
    s.memRead off = s.readReg r := by
  simp only [State.memRead, h]

/-- A host's read at the offset of a register that exists, outside reset, as a step (20_memory.md R46). -/
theorem step_readAt_reg {s : State} {r : Reg} {rest : List Event} (hl : s.params.legal = true)
    (hk : ∀ k, r = .pass k → k < s.params.passMax.toNat / 4) (hs : s.sched = readAt s.params r.offset :: rest)
    (hr : s.rst = false) (hp : s.powerLost = false) :
    step s = .next (s.moved rest .host (some ⟨true, s.readReg r⟩)) := by
  have hmap : regAt (s.moved rest .host s.resp).params r.offset = some r := regAt_offset s.params r hk
  rw [step_readAt hs (Reg.offset_aligned hl hk).1 r.offset_mod_four hr hp, State.memRead_of_regAt hmap, State.readReg_moved]

theorem State.ctrlWord_eq (s : State) : s.ctrlWord = if s.irqEn then 1#32 else 0#32 := by
  unfold State.ctrlWord
  cases s.irqEn <;> rfl

/-- Settles O35: the read as a step, and each register by its field; only CTRL and ERR_CODE are no plain copies. -/
theorem readsReturnTheRegisterAndChangeNothing : Obligations.ReadsReturnTheRegisterAndChangeNothing := by
  refine ⟨fun s r rest hr hp hl hk hs => step_readAt_reg hl hk hs hr hp, fun s => ?_⟩
  refine ⟨s.ctrlWord_eq, rfl, ?_, rfl, rfl, rfl, rfl, rfl, rfl, ⟨rfl, rfl, rfl, rfl⟩, ⟨rfl, rfl, rfl, rfl⟩,
    ⟨rfl, rfl, rfl, rfl⟩, ⟨rfl, rfl, rfl, rfl, rfl, rfl, rfl, rfl⟩, fun _ => rfl, fun _ => rfl⟩
  change s.errCodeWord = _
  unfold State.errCodeWord
  cases s.errCode <;> rfl

/-! ## Accesses that leave the block alone -/

/-- A read under `rst` is ignored with an OK response, whatever its width (70_reset_and_hazards.md R139). -/
theorem step_read_of_rst {s : State} {off bytes : Nat} {rest : List Event}
    (hs : s.sched = .host (.read (s.params.base + off) bytes) :: rest) (ho : off < windowBytes) (hr : s.rst = true)
    (hp : s.powerLost = false) : step s = .next (s.moved rest .host (some ⟨true, 0#32⟩)) := by
  rw [step_read hs ho hp, hostRead, if_pos (by exact hr)]
  rfl

/-- A write under `rst` is ignored with an OK response, whatever its width (70_reset_and_hazards.md R139). -/
theorem step_write_of_rst {s : State} {off bytes : Nat} {v : Word} {rest : List Event}
    (hs : s.sched = .host (.write (s.params.base + off) bytes v) :: rest) (ho : off < windowBytes) (hr : s.rst = true)
    (hp : s.powerLost = false) : step s = .next (s.moved rest .host (some ⟨true, 0#32⟩)) := by
  rw [step_write hs ho hp, hostWrite, if_pos (by exact hr)]
  rfl

/-- The ranges of 20_memory.md R49 map no register. -/
theorem regAt_eq_none {p : Params} {off : Nat} (hl : p.legal = true)
    (h : off = 0x03C ∨ (0x070 ≤ off ∧ off < 0x080) ∨ (0x0A0 ≤ off ∧ off < 0x100) ∨ (0x17C ≤ off ∧ off < 0x200) ∨
      (0x200 + p.passMax.toNat ≤ off ∧ off < 4096)) : regAt p off = none := by
  obtain ⟨-, hmul, -, -⟩ := (Params.legal_iff p).1 hl
  unfold regAt passBase
  obtain rfl | h | h | h | h := h
  · rfl
  · simp (disch := omega) only [if_neg, if_pos]
  · simp (disch := omega) only [if_neg, if_pos]
  · simp (disch := omega) only [if_neg, if_pos]
  · simp (disch := omega) only [if_neg]

/-- An unmapped aligned offset reads 0 and ignores a write, with an OK response, in reset or not (20_memory.md R49). -/
theorem step_access_unmapped {s : State} {off : Nat} {v : Word} {rest : List Event} (hn : regAt s.params off = none)
    (ho : off < windowBytes) (hal : off % 4 = 0) (hp : s.powerLost = false)
    (hs : s.sched = readAt s.params off :: rest ∨ s.sched = writeAt s.params off v :: rest) :
    step s = .next (s.moved rest .host (some ⟨true, 0#32⟩)) := by
  cases hr : s.rst with
  | true =>
    obtain hs | hs := hs
    · exact step_read_of_rst hs ho hr hp
    · exact step_write_of_rst hs ho hr hp
  | false =>
    obtain hs | hs := hs
    · simp only [step_readAt hs ho hal hr hp, State.memRead, State.moved, hn]
    · simp only [step_writeAt hs ho hal hr hp, memWrite, State.moved, hn]

/-- Settles O38: none of the offsets maps a register. -/
theorem unmappedOffsetsReadZeroAndIgnoreWrites : Obligations.UnmappedOffsetsReadZeroAndIgnoreWrites := by
  intro s off v rest hp hl hal hoff hs
  obtain ⟨-, -, -, hmax⟩ := (Params.legal_iff s.params).1 hl
  exact step_access_unmapped (regAt_eq_none hl hoff) (by simp only [windowBytes]; omega) hal hp hs

/-- The read-only registers are no word of PASS, and their write does nothing (20_memory.md R47). -/
theorem writeReg_readOnly {r : Reg} (v : Word)
    (h : r ∈ [Reg.id, .errCode, .errInfo0, .errInfo1, .kdfCount, .blocksLeft, .maxRounds, .passMax, .sig1Exp, .sig2Exp] ∨
      (∃ i, r = .dout i) ∨ (∃ i, r = .chain i) ∨ (∃ i, r = .key i)) :
    (∀ k, r ≠ .pass k) ∧ ∀ s, writeReg r v s = .next s := by
  obtain h | ⟨i, rfl⟩ | ⟨i, rfl⟩ | ⟨i, rfl⟩ := h
  · fin_cases h <;> exact ⟨nofun, fun _ => rfl⟩
  · exact ⟨nofun, fun _ => rfl⟩
  · exact ⟨nofun, fun _ => rfl⟩
  · exact ⟨nofun, fun _ => rfl⟩

/-- Settles O39: the write reaches the register, which ignores it. -/
theorem writesToReadOnlyRegistersAreIgnored : Obligations.WritesToReadOnlyRegistersAreIgnored := by
  intro s r v rest hr hp hro hs
  obtain ⟨hk, hw⟩ := writeReg_readOnly v hro
  exact (step_writeAt_reg hk hs hr hp).trans (hw _)

theorem wholeWord_eq_false {off bytes : Nat} (h : bytes ≠ 4 ∨ off % 4 ≠ 0) : wholeWord off bytes = false := by
  simpa only [wholeWord, Bool.and_eq_false_iff, decide_eq_false_iff_not] using h

/-- A read that is no aligned word gets an ERROR response (20_memory.md R48). -/
theorem hostRead_of_bad {s : State} {off bytes : Nat} (hr : s.rst = false) (h : bytes ≠ 4 ∨ off % 4 ≠ 0) :
    hostRead off bytes s = .next (s.answer false 0#32) := by
  simp [hostRead, hr, wholeWord_eq_false h]

/-- A write that is no aligned word gets an ERROR response (20_memory.md R48). -/
theorem hostWrite_of_bad {s : State} {off bytes : Nat} (v : Word) (hr : s.rst = false) (h : bytes ≠ 4 ∨ off % 4 ≠ 0) :
    hostWrite off bytes v s = .next (s.answer false 0#32) := by
  simp [hostWrite, hr, wholeWord_eq_false h]

/-- Settles O37: the access as a step, and the port's refusal of it. -/
theorem badAccessesGetAnErrorResponse : Obligations.BadAccessesGetAnErrorResponse := by
  intro s off bytes v rest hr hp ho hbad
  exact ⟨fun hs => (step_read hs ho hp).trans (hostRead_of_bad hr hbad),
    fun hs => (step_write hs ho hp).trans (hostWrite_of_bad v hr hbad)⟩

/-! ## The write of a command word -/

theorem writeCmd_of_decode {w : Word} {i : Instr} (h : decode w = .ok i) (s : State) : writeCmd w s = exec i s := by
  rw [writeCmd, h]

/-- The host's write of a command word to CMD, outside reset, as a step (20_memory.md R47, 43_control.md R100). -/
theorem step_writeAt_cmd {s : State} {w : Word} {i : Instr} {rest : List Event}
    (hs : s.sched = writeAt s.params Reg.cmd.offset w :: rest) (hr : s.rst = false) (hp : s.powerLost = false)
    (hd : decode w = .ok i) : step s = exec i (s.moved rest .host (some ⟨true, 0#32⟩)) :=
  (step_writeAt_reg (r := .cmd) nofun hs hr hp).trans (writeCmd_of_decode hd _)

/-- What a table word stands for is what its word of the block decodes to (30_encoding.md R66). -/
theorem decode_of_decodeTableWord {n w : Nat} {i : Instr} (h : decodeTableWord n w = some i) :
    decode (tableWord n w) = .ok i := by
  unfold decodeTableWord at h
  split at h
  · split at h
    · cases h; assumption
    · cases h
  · cases h

/-- Settles O5: the write as a step, for any word that decodes and for the one `withFetchWord` places. -/
theorem stepRunsTheDecodedCommand : Obligations.StepRunsTheDecodedCommand :=
  ⟨fun _ _ _ _ hs hr hp hd _ => step_writeAt_cmd hs hr hp hd,
    fun s w _ h => step_writeAt_cmd (s := s.withFetchWord 32 w) rfl rfl rfl (decode_of_decodeTableWord h)⟩

end Machine

end Sys2Proof
end

section
/-! The encoding (30_encoding.md): the opcode map both ways, and the bits of the header that PARSE_HEADER examines. -/

namespace Sys2Proof

/-! ## Command words -/

/-- A command word is RSV above OPC (30_encoding.md R63). -/
theorem rsvField_append_opcField (w : Word) : rsvField w ++ opcField w = w := by
  refine BitVec.eq_of_getLsbD_eq fun i hi => ?_
  simp only [rsvField, opcField, BitVec.getLsbD_append, BitVec.getLsbD_extractLsb']
  split
  · simp [*]
  · rw [decide_eq_true (by omega), Bool.true_and, Nat.add_sub_cancel' (by omega)]

theorem rsvField_opcField_encode (i : Instr) : rsvField (encode i) = 0#24 ∧ opcField (encode i) = opcOf i := by
  cases i with
  | clear => exact Laws.ReservedClear.clear.2
  | parseHeader => exact Laws.ReservedClear.parseHeader.2
  | deriveKey => exact Laws.ReservedClear.deriveKey.2
  | bodyInit => exact Laws.ReservedClear.bodyInit.2
  | decryptBlock => exact Laws.ReservedClear.decryptBlock.2

/-- A word is a command's encoding exactly when its two fields are the command's (30_encoding.md R63). -/
theorem eq_encode_iff (w : Word) (i : Instr) : w = encode i ↔ rsvField w = 0#24 ∧ opcField w = opcOf i := by
  constructor
  · rintro rfl
    exact rsvField_opcField_encode i
  · rintro ⟨hrsv, hopc⟩
    rw [← rsvField_append_opcField w, hrsv, hopc, encode]

theorem instrOfOpc_opcOf (i : Instr) : instrOfOpc (opcOf i) = some i := by
  cases i <;> rfl

/-- The opcode map read backwards (30_encoding.md R64): an opcode that it gives a command is that command's. -/
theorem instrOfOpc_eq_some_iff (b : Byte) (i : Instr) : instrOfOpc b = some i ↔ b = opcOf i := by
  constructor
  · intro h
    unfold instrOfOpc at h
    split_ifs at h with h1 h2 h3 h4 h5 <;> cases h <;> assumption
  · rintro rfl
    exact instrOfOpc_opcOf i

/-- The decoder by a word's two fields (30_encoding.md R64, R65). -/
theorem decode_eq_ok_iff_fields (w : Word) (i : Instr) :
    decode w = .ok i ↔ rsvField w = 0#24 ∧ opcField w = opcOf i := by
  rw [← instrOfOpc_eq_some_iff]
  unfold decode
  split
  · cases instrOfOpc (opcField w) <;> simp [*]
  · simp [*]

/-- The words that decode to a command are its encoding alone (30_encoding.md R63 to R65). -/
theorem decode_eq_ok_iff (w : Word) (i : Instr) : decode w = .ok i ↔ w = encode i := by
  rw [decode_eq_ok_iff_fields, eq_encode_iff]

@[simp] theorem decode_encode (i : Instr) : decode (encode i) = .ok i := (decode_eq_ok_iff _ i).2 rfl

/-- A word of the block, stored as a table word of 32 bits, is itself (30_encoding.md R66). -/
@[simp] theorem tableWord_toNat (w : Word) : tableWord 32 w.toNat = w := by
  rw [tableWord, Nat.mod_eq_of_lt w.isLt, BitVec.ofNat_toNat, BitVec.setWidth_eq]

/-- A word of the block that decodes does so as a table word (30_encoding.md R66). -/
theorem decodeTableWord_of_decode {w : Word} {i : Instr} (h : decode w = .ok i) : decodeTableWord 32 w.toNat = some i := by
  rw [decodeTableWord, if_pos (Nat.mod_lt _ (by decide)), tableWord_toNat, h]

namespace Machine

/-- Settles O1: the words of the table are the commands' encodings. -/
theorem decodeIsExactlyTheOpcodeMap : Obligations.DecodeIsExactlyTheOpcodeMap := fun w =>
  ⟨decode_eq_ok_iff w .clear, decode_eq_ok_iff w .parseHeader, decode_eq_ok_iff w .deriveKey,
    decode_eq_ok_iff w .bodyInit, decode_eq_ok_iff w .decryptBlock⟩

/-- Settles O2: the encoding decodes, and stands unchanged in a table word. -/
theorem decodeOfEncodeIsTheCommand : Obligations.DecodeOfEncodeIsTheCommand := fun i _ =>
  ⟨decode_encode i, decodeTableWord_of_decode (decode_encode i)⟩

/-! ## What PARSE_HEADER examines -/

/-- The major version as a number (30_encoding.md R71). -/
theorem versionMajor_toNat (w : Word) : (versionMajor w).toNat = w.toNat / 65536 := by
  simp only [versionMajor, BitVec.extractLsb'_toNat, Nat.shiftRight_eq_div_pow]
  omega

theorem versionMajor_congr {v w : Word} (h : v.toNat / 65536 = w.toNat / 65536) : versionMajor v = versionMajor w :=
  BitVec.eq_of_toNat_eq (by rw [versionMajor_toNat, versionMajor_toNat, h])

/-- The cipher depends on flag bits 1 and 3 alone (30_encoding.md R70). -/
theorem selectCipher_congr (both : BothCiphers) {f g : Word} (h1 : f.getLsbD 1 = g.getLsbD 1)
    (h3 : f.getLsbD 3 = g.getLsbD 3) : selectCipher both f = selectCipher both g := by
  simp only [selectCipher, h1, h3]

/-! PARSE_HEADER's engine step, an equation per outcome in the order of its checks (40_header.md R77, R78). -/

section ParseOutcomes

variable {s : State}

theorem parseStep_of_short (hl : s.fileLen < headerBytes) : parseStep s = s.raise .malformedHeader s.fileLen 0#32 :=
  if_pos hl

theorem parseStep_of_badSignature (hl : headerBytes ≤ s.fileLen)
    (hg : s.hdrSig1 ≠ s.params.sig1 ∨ s.hdrSig2 ≠ s.params.sig2) :
    parseStep s = s.raise .badSignature s.hdrSig1 s.hdrSig2 := by
  rw [parseStep, if_neg (BitVec.not_lt.2 hl), if_pos hg]

theorem parseStep_of_oldVersion (hl : headerBytes ≤ s.fileLen) (h1 : s.hdrSig1 = s.params.sig1)
    (h2 : s.hdrSig2 = s.params.sig2) (hv : versionMajor s.hdrVersion < 3#16) :
    parseStep s = s.raise .unsupportedVersion s.hdrVersion 0#32 := by
  rw [parseStep, if_neg (BitVec.not_lt.2 hl), if_neg (not_or.2 ⟨not_not.2 h1, not_not.2 h2⟩), if_pos hv]

theorem parseStep_of_noCipher (hl : headerBytes ≤ s.fileLen) (h1 : s.hdrSig1 = s.params.sig1)
    (h2 : s.hdrSig2 = s.params.sig2) (hv : 3#16 ≤ versionMajor s.hdrVersion)
    (hc : selectCipher s.params.bothCiphers s.hdrFlags = .none) :
    parseStep s = s.raise .unknownCipher s.hdrFlags 0#32 := by
  rw [parseStep, if_neg (BitVec.not_lt.2 hl), if_neg (not_or.2 ⟨not_not.2 h1, not_not.2 h2⟩), if_neg (BitVec.not_lt.2 hv),
    hc]

theorem parseStep_of_valid {c : Cipher} (hl : headerBytes ≤ s.fileLen) (h1 : s.hdrSig1 = s.params.sig1)
    (h2 : s.hdrSig2 = s.params.sig2) (hv : 3#16 ≤ versionMajor s.hdrVersion)
    (hc : selectCipher s.params.bothCiphers s.hdrFlags = c) (hn : c ≠ .none) :
    parseStep s = { s with cipher := c, phase := .header }.complete := by
  rw [parseStep, if_neg (BitVec.not_lt.2 hl), if_neg (not_or.2 ⟨not_not.2 h1, not_not.2 h2⟩), if_neg (BitVec.not_lt.2 hv),
    hc]
  cases c with
  | none => exact absurd rfl hn
  | aes => rfl
  | twofish => rfl

end ParseOutcomes

/-- What PARSE_HEADER's engine step examines of the windows: two states that agree on it end alike, but for the windows and the
context word ERR_INFO0 (40_header.md R79). -/
theorem parseStep_congr {s u : State} (hu : u = { s with mem := u.mem }) (h1 : u.hdrSig1 = s.hdrSig1)
    (h2 : u.hdrSig2 = s.hdrSig2) (hv : versionMajor u.hdrVersion = versionMajor s.hdrVersion)
    (hc : selectCipher s.params.bothCiphers u.hdrFlags = selectCipher s.params.bothCiphers s.hdrFlags) :
    parseStep u = { parseStep s with mem := u.mem, errInfo0 := (parseStep u).errInfo0 } := by
  have hp : u.params = s.params := by rw [hu]
  have hf : u.fileLen = s.fileLen := by rw [hu]
  have raised (e : ErrCode) (i0 j0 i1 : Word) :
      u.raise e i0 i1 = { s.raise e j0 i1 with mem := u.mem, errInfo0 := i0 } := by rw [hu]; rfl
  have outcome := parseStep_cases s
  rw [← hc, ← hf, ← hp, ← h1, ← h2, ← hv] at outcome
  obtain ⟨hl, e⟩ | ⟨hl, hg, e⟩ | ⟨hl, hg1, hg2, hm, e⟩ | ⟨hl, hg1, hg2, hm, hn, e⟩ | ⟨c, hl, hg1, hg2, hm, hk, hn, e⟩ :=
    outcome
  · rw [e, parseStep_of_short hl]
    exact raised _ _ _ _
  · rw [e, parseStep_of_badSignature hl hg]
    exact raised _ _ _ _
  · rw [e, parseStep_of_oldVersion hl hg1 hg2 hm]
    exact raised _ _ _ _
  · rw [e, parseStep_of_noCipher hl hg1 hg2 hm hn]
    exact raised _ _ _ _
  · rw [e, parseStep_of_valid hl hg1 hg2 hm hk hn, hu]
    rfl

/-- Settles O16: both steps are PARSE_HEADER's engine step, and the states agree on all that it examines. -/
theorem unexaminedHeaderBitsHaveNoEffect : Obligations.UnexaminedHeaderBitsHaveNoEffect := by
  intro s u t v ha ho hu h1 h2 hb1 hb3 hv hs hw
  have hua : u.agent = .engine := (congrArg State.agent hu).trans ha
  have huo : u.op = .parse := (congrArg State.op hu).trans ho
  rw [exec_parse_engine ha ho] at hs
  rw [exec_parse_engine hua huo] at hw
  cases hs
  cases hw
  exact parseStep_congr hu h1 h2 (versionMajor_congr hv) (selectCipher_congr _ hb1 hb3)

end Machine

end Sys2Proof
end

section
/-! PARSE_HEADER (40_header.md R77, R78): each outcome of its engine step, under the rule's own conditions on the registers. -/

namespace Sys2Proof.Machine

/-! ## The checks as numbers and flag bits -/

theorem fileLen_lt_headerBytes_iff (s : State) : s.fileLen < headerBytes ↔ s.fileLen.toNat < 124 := Iff.rfl

theorem headerBytes_le_fileLen_iff (s : State) : headerBytes ≤ s.fileLen ↔ 124 ≤ s.fileLen.toNat := Iff.rfl

/-- The version check, failed (30_encoding.md R71). -/
theorem versionMajor_lt_three_iff (v : Word) : versionMajor v < 3#16 ↔ v.toNat / 65536 < 3 := by
  rw [BitVec.lt_def, versionMajor_toNat]
  rfl

/-- The version check, passed (30_encoding.md R71). -/
theorem three_le_versionMajor_iff (v : Word) : 3#16 ≤ versionMajor v ↔ 3 ≤ v.toNat / 65536 := by
  rw [← BitVec.not_lt, versionMajor_lt_three_iff, Nat.not_lt]

/-! The cipher by the two flag bits, an equation per row of the rule's table (30_encoding.md R70). -/

section SelectCipher

variable {flags : Word}

theorem selectCipher_of_neither (both : BothCiphers) (h1 : flags.getLsbD 1 = false) (h3 : flags.getLsbD 3 = false) :
    selectCipher both flags = .none := by
  simp only [selectCipher, h1, h3]

theorem selectCipher_of_aes_only (both : BothCiphers) (h1 : flags.getLsbD 1 = true) (h3 : flags.getLsbD 3 = false) :
    selectCipher both flags = .aes := by
  simp only [selectCipher, h1, h3]

theorem selectCipher_of_twofish_only (both : BothCiphers) (h1 : flags.getLsbD 1 = false) (h3 : flags.getLsbD 3 = true) :
    selectCipher both flags = .twofish := by
  simp only [selectCipher, h1, h3]

theorem selectCipher_preferAES_of_both (h1 : flags.getLsbD 1 = true) (h3 : flags.getLsbD 3 = true) :
    selectCipher .preferAES flags = .aes := by
  simp only [selectCipher, h1, h3]

theorem selectCipher_reject_of_both (h1 : flags.getLsbD 1 = true) (h3 : flags.getLsbD 3 = true) :
    selectCipher .reject flags = .none := by
  simp only [selectCipher, h1, h3]

end SelectCipher

/-! ## The outcomes -/

/-- Settles O14: with the three checks passed the step selects whatever cipher the flags select, AES, Twofish, or AES again. -/
theorem parseHeaderSelectsTheCipher : Obligations.ParseHeaderSelectsTheCipher := by
  intro s ha ho hlen hsig1 hsig2 hver
  have hl := (headerBytes_le_fileLen_iff s).2 hlen
  have hv := (three_le_versionMajor_iff s.hdrVersion).2 hver
  have selects (c : Cipher) (hc : selectCipher s.params.bothCiphers s.hdrFlags = c) (hn : c ≠ .none) :
      exec .parseHeader s = .next { s with cipher := c, phase := .header, op := .none, done := true } :=
    (exec_parse_engine ha ho).trans (congrArg _ (parseStep_of_valid hl hsig1 hsig2 hv hc hn))
  refine ⟨fun haes htwo => ?_, fun haes htwo => ?_, fun haes htwo hpref => ?_⟩
  · exact selects .aes (selectCipher_of_aes_only _ haes htwo) nofun
  · exact selects .twofish (selectCipher_of_twofish_only _ haes htwo) nofun
  · exact selects .aes (hpref ▸ selectCipher_preferAES_of_both haes htwo) nofun

/-- Settles O15: the outcome of each failed check, in the order of the checks. -/
theorem parseHeaderErrorsInOrder : Obligations.ParseHeaderErrorsInOrder := by
  intro s ha ho
  rw [exec_parse_engine ha ho]
  refine ⟨fun hlen => congrArg _ ?short, fun hlen hsig => congrArg _ ?signature,
    fun hlen hsig1 hsig2 hver => congrArg _ ?version, fun hlen hsig1 hsig2 hver hflags => congrArg _ ?flags⟩
  case short => exact parseStep_of_short ((fileLen_lt_headerBytes_iff s).2 hlen)
  case signature => exact parseStep_of_badSignature ((headerBytes_le_fileLen_iff s).2 hlen) (not_and_or.1 hsig)
  case version =>
    exact parseStep_of_oldVersion ((headerBytes_le_fileLen_iff s).2 hlen) hsig1 hsig2
      ((versionMajor_lt_three_iff _).2 hver)
  case flags =>
    have hnone : selectCipher s.params.bothCiphers s.hdrFlags = .none := by
      obtain ⟨haes, htwo⟩ | ⟨haes, htwo, hrej⟩ := hflags
      · exact selectCipher_of_neither _ haes htwo
      · exact hrej ▸ selectCipher_reject_of_both haes htwo
    exact parseStep_of_noCipher ((headerBytes_le_fileLen_iff s).2 hlen) hsig1 hsig2
      ((three_le_versionMajor_iff _).2 hver) hnone

end Sys2Proof.Machine
end

section
/-! DERIVE_KEY (41_kdf.md R82 to R91): its three engine steps under the rule's own conditions, the run of them left to the engine,
and what a derivation in progress keeps whatever comes between them. -/

namespace Sys2Proof.Machine

/-! ## The engine steps -/

/-- With KSTEP at START the enabled step is the start step (43_control.md R102). -/
theorem deriveStep_of_start {s : State} (hk : s.kstep = .start) : deriveStep s = deriveStart s := by
  rw [deriveStep, hk]

/-- The start step with a passphrase that does not fit in its window (41_kdf.md R84, R88). -/
theorem deriveStart_of_long {s : State} (hl : s.params.passMax < s.passLen) :
    deriveStart s = s.raise .passphraseTooLong s.passLen s.params.passMax :=
  if_pos hl

/-- The start step with a passphrase that fits and too many rounds (41_kdf.md R84, R88). -/
theorem deriveStart_of_expensive {s : State} (hl : s.passLen ≤ s.params.passMax) (hm : s.params.maxRounds < s.hdrRounds) :
    deriveStart s = s.raise .keyDerivationTooExpensive s.hdrRounds s.params.maxRounds := by
  rw [deriveStart, if_neg (BitVec.not_lt.2 hl), if_pos hm]

/-- A count below a bound does not wrap when it counts up (41_kdf.md R85). -/
theorem toNat_add_one_of_lt {c n : Word} (h : c < n) : (c + 1#32).toNat = c.toNat + 1 := by
  bv_omega

/-- Settles O17: the outcome under each bound, in the order of the checks. -/
theorem deriveKeyStartStep : Obligations.DeriveKeyStartStep := by
  intro s ha ho hk
  rw [exec_derive_engine ha ho]
  refine ⟨fun hlong => congrArg _ ?long, fun hfits hmany => congrArg _ ?expensive,
    fun hfits hfew => congrArg _ ?hashed⟩
  case long => exact (deriveStep_of_start hk).trans (deriveStart_of_long hlong)
  case expensive => exact (deriveStep_of_start hk).trans (deriveStart_of_expensive hfits hmany)
  case hashed => exact deriveStep_start hk hfits hfew

/-- Settles O18: below the round count the round step is the enabled one. -/
theorem deriveKeyRoundStep : Obligations.DeriveKeyRoundStep := by
  intro s ha ho hk hc
  refine ⟨toNat_add_one_of_lt (BitVec.lt_def.2 hc), ?_⟩
  exact (exec_derive_engine ha ho).trans (congrArg _ (deriveStep_round hk hc))

/-- Settles O19: at the round count the finish step is the enabled one. -/
theorem deriveKeyFinishStep : Obligations.DeriveKeyFinishStep := by
  intro s ha ho hk hc
  exact (exec_derive_engine ha ho).trans (congrArg _ (deriveStep_finish hk hc))

/-! ## DERIVE_KEY left to the engine -/

/-- DERIVE_KEY runs, no input comes, and nothing holds the engine (43_control.md R102, 70_reset_and_hazards.md R150). -/
structure DerivesAlone (s : State) : Prop where
  op : s.op = .derive
  sched : s.sched = []
  rst : s.rst = false
  clk : s.clk = true
  powerLost : s.powerLost = false

/-- Every step is then the enabled step of the derivation. -/
theorem DerivesAlone.step_eq {s : State} (h : DerivesAlone s) : step s = .next (deriveStep { s with agent := .engine }) := by
  rw [step_engine (i := .deriveKey) (by rw [h.op]; rfl) h.sched h.rst h.clk h.powerLost]
  exact exec_derive_engine rfl h.op

/-- The state that a finished derivation of the key `k` leaves (41_kdf.md R83, R86). -/
def State.derived (s : State) (k : Bytes32) : State :=
  { s with
    key := k.toWords, kdfCount := s.hdrRounds, phase := .keyed, op := .none, done := true,
    kstep := .start, lblk := Block.zero, rblk := Block.zero, agent := .engine }

/-- With `n` rounds to go, `n` round steps and the finish step stretch both halves `n` times more and hash them. -/
theorem run_rounds {s : State} (n : Nat) (h : DerivesAlone s) (hk : s.kstep = .stretch)
    (hn : s.kdfCount.toNat + n = s.hdrRounds.toNat) :
    Host.Core.run Sys2Proof.core (n + 1) s =
      .next (s.derived (finalKey s.seed16 (stretch s.seed32 n s.lblk) (stretch s.seed32 n s.rblk))) := by
  induction n generalizing s with
  | zero =>
    have hc : s.kdfCount = s.hdrRounds := BitVec.eq_of_toNat_eq hn
    have hstep : step s = .next (deriveFinish { s with agent := .engine }) :=
      h.step_eq.trans (congrArg _ (deriveStep_finish hk hc))
    rw [run_succ 0 hstep, stretch_zero, stretch_zero, State.derived, ← hc]
    rfl
  | succ n ih =>
    have hc : s.kdfCount < s.hdrRounds := BitVec.lt_def.2 (by omega)
    have hstep : step s = .next (deriveRound { s with agent := .engine }) :=
      h.step_eq.trans (congrArg _ (deriveStep_round hk hc))
    have hn' : (s.kdfCount + 1#32).toNat + n = s.hdrRounds.toNat := by
      rw [toNat_add_one_of_lt hc]; omega
    rw [run_succ (n + 1) hstep, stretch_succ, stretch_succ]
    exact ih (s := deriveRound { s with agent := .engine }) ⟨h.op, h.sched, h.rst, h.clk, h.powerLost⟩ hk hn'

/-- From its start step on, a derivation within both bounds leaves the key derivation function's value (41_kdf.md R82, R83). -/
theorem run_derivation {s : State} (h : DerivesAlone s) (hk : s.kstep = .start) (hl : s.passLen ≤ s.params.passMax)
    (hm : s.hdrRounds ≤ s.params.maxRounds) :
    Host.Core.run Sys2Proof.core (s.hdrRounds.toNat + 2) s =
      .next (s.derived (kdf (s.passBytes s.passLen.toNat) s.seed16 s.seed32 s.hdrRounds.toNat)) := by
  have hstep := h.step_eq.trans (congrArg _ (deriveStep_start hk hl hm))
  exact (run_succ _ hstep).trans
    (run_rounds s.hdrRounds.toNat ⟨h.op, h.sched, h.rst, h.clk, h.powerLost⟩ rfl (Nat.zero_add _))

/-- Settles O20: the run of the derivation, left to the engine. -/
theorem deriveKeyComputesTheKdf : Obligations.DeriveKeyComputesTheKdf := by
  intro s ho hk hs hr hc hp hl hm
  exact run_derivation ⟨ho, hs, hr, hc, hp⟩ hk hl hm

/-- Settles O23: each run leaves the key derivation function's value, and its arguments agree. -/
theorem keyDependsOnTheKdfInputsAlone : Obligations.KeyDependsOnTheKdfInputsAlone := by
  intro s u hso hsk hss hsr hsc hsp huo huk hus hur huc hup hsl hul hsm hum hpass hseed16 hseed32 hrounds
  refine ⟨_, _, deriveKeyComputesTheKdf s hso hsk hss hsr hsc hsp hsl hsm,
    deriveKeyComputesTheKdf u huo huk hus hur huc hup hul hum, ?_, rfl, rfl⟩
  change Bytes32.toWords _ = Bytes32.toWords _
  rw [hpass, hseed16, hseed32, hrounds]

/-! ## DERIVE_KEY under any interleaving -/

/-- While no rounds run the derivation's invariant says nothing. -/
theorem DerivationInv.of_start {s : State} (hk : s.kstep = .start) : DerivationInv s :=
  ⟨fun hk' => absurd (hk.symm.trans hk') nofun, fun hk' => absurd (hk.symm.trans hk') nofun⟩

/-- The start step sets the halves of the passphrase's hash, with no round done (41_kdf.md R84). -/
theorem derivationInv_deriveStart (s : State) : DerivationInv (deriveStart s) := by
  obtain ⟨-, e⟩ | ⟨-, -, e⟩ | ⟨-, -, e⟩ := deriveStart_cases s <;> rw [e]
  · exact .of_start rfl
  · exact .of_start rfl
  · exact ⟨fun _ => (stretch_zero _ _).symm, fun _ => (stretch_zero _ _).symm⟩

/-- The round step does one round more on each half (41_kdf.md R85). -/
theorem DerivationInv.deriveRound {s : State} (d : DerivationInv s) (hk : s.kstep = .stretch)
    (hc : s.kdfCount < s.hdrRounds) : DerivationInv (deriveRound s) := by
  have hcount : (Machine.deriveRound s).kdfCount.toNat = s.kdfCount.toNat + 1 := toNat_add_one_of_lt hc
  constructor
  · intro _
    rw [hcount, stretch_succ_last]
    exact congrArg (aes256Enc s.seed32) (d.left hk)
  · intro _
    rw [hcount, stretch_succ_last]
    exact congrArg (aes256Enc s.seed32) (d.right hk)

/-- Whichever step of DERIVE_KEY is enabled keeps the derivation (43_control.md R102). -/
theorem DerivationInv.deriveStep {s : State} (d : DerivationInv s) : DerivationInv (deriveStep s) := by
  obtain ⟨-, e⟩ | ⟨hk, hc, e⟩ | ⟨-, -, e⟩ | ⟨-, -, e⟩ := deriveStep_cases s <;> rw [e]
  · exact derivationInv_deriveStart s
  · exact d.deriveRound hk hc
  · exact .of_start rfl
  · exact d

/-- A request that is accepted leaves no rounds running: KSTEP is START while idle (10_state.md R38). -/
theorem kstep_accept_of_start {s : State} (hk : s.kstep = .start) (i : Instr) : (s.accept i).kstep = .start := by
  simp [hk]

theorem kstep_parseStep_of_start {s : State} (hk : s.kstep = .start) : (parseStep s).kstep = .start := by
  obtain ⟨e, i0, i1, h, -⟩ | ⟨c, h⟩ := parseStep_shape s <;> rw [h]
  · rfl
  · exact hk

theorem kstep_initStep_of_start {s : State} (hk : s.kstep = .start) : (initStep s).kstep = .start := by
  obtain ⟨e, i0, i1, h, -⟩ | ⟨c, b, h⟩ := initStep_shape s <;> rw [h]
  · rfl
  · exact hk

/-- Every change keeps a derivation in progress: no input of it is written while it runs (43_control.md R101), and in any other
command, or none, no rounds run. -/
theorem DerivationInv.change {e : Bool} {s t : State} (hs : SessionInv s) (d : DerivationInv s) (c : Change e s t) :
    DerivationInv t := by
  have idle (ho : s.op = .none) : s.kstep = .start := hs.kstep_start (by simp [ho])
  cases c with
  | keep => exact d
  | drop => exact ⟨d.left, d.right⟩
  | status v => exact ⟨d.left, d.right⟩
  | ctrl v => exact ⟨d.left, d.right⟩
  | fileLen v ho hp => exact .of_start (idle ho)
  | hdr k v ho hp => exact .of_start (idle ho)
  | passLen v ho => exact .of_start (idle ho)
  | din i v ho => exact .of_start (idle ho)
  | pass k v ho hk => exact .of_start (idle ho)
  | clear he => exact .of_start rfl
  | illegal w ho hp => exact .of_start rfl
  | sequence i ho hp hl => exact .of_start rfl
  | accept i hi ho hl => exact .of_start (kstep_accept_of_start (idle ho) i)
  | parse ho => exact .of_start (kstep_parseStep_of_start (hs.kstep_start (by simp [ho])))
  | derive ho => exact d.deriveStep
  | init ho => exact .of_start (kstep_initStep_of_start (hs.kstep_start (by simp [ho])))
  | decrypt ho => exact .of_start (hs.kstep_start (by simp [ho]))

/-- Settles O21: a step is a change, or an input on a pin, of which only the assertion of `rst` touches a derivation, and ends it. -/
theorem derivationInProgressIsKept : Obligations.DerivationInProgressIsKept := by
  intro s t hs d h
  obtain ⟨q, a, r, c, -⟩ | ⟨q, l, rfl, -⟩ | ⟨q, b, rfl⟩ | ⟨q, rfl⟩ := step_cases h
  · exact .change (hs.moved q a r) ⟨d.left, d.right⟩ c
  · cases l with
    | true => exact .of_start rfl
    | false => exact ⟨d.left, d.right⟩
  · exact ⟨d.left, d.right⟩
  · exact ⟨d.left, d.right⟩

/-- DERIVE_KEY's engine step moves the phase from HEADER to KEYED only as the finish step (41_kdf.md R86). -/
theorem deriveStep_enters_keyed {s : State} (hp : s.phase = .header) (ht : (deriveStep s).phase = .keyed) :
    s.kstep = .stretch ∧ s.kdfCount = s.hdrRounds ∧ deriveStep s = deriveFinish s := by
  obtain ⟨-, e⟩ | ⟨-, -, e⟩ | ⟨hk, hc, e⟩ | ⟨-, -, e⟩ := deriveStep_cases s
  · rw [e] at ht
    obtain ⟨-, e⟩ | ⟨-, -, e⟩ | ⟨-, -, e⟩ := deriveStart_cases s <;> rw [e] at ht
    · cases ht
    · cases ht
    · exact absurd (hp.symm.trans ht) nofun
  · rw [e] at ht
    exact absurd (hp.symm.trans ht) nofun
  · exact ⟨hk, hc, e⟩
  · rw [e] at ht
    exact absurd (hp.symm.trans ht) nofun

/-- The change that moves the phase from HEADER to KEYED is DERIVE_KEY's finish step (43_control.md R99, 41_kdf.md R86). -/
theorem Change.enters_keyed {e : Bool} {s t : State} (c : Change e s t) (hs : SessionInv s) (hp : s.phase = .header)
    (ht : t.phase = .keyed) : s.kstep = .stretch ∧ s.kdfCount = s.hdrRounds ∧ t = deriveFinish s := by
  have stays (h : t.phase = s.phase) : False := nomatch hp.symm.trans (h.symm.trans ht)
  cases c with
  | keep => exact (stays rfl).elim
  | drop => exact (stays rfl).elim
  | status v => exact (stays rfl).elim
  | ctrl v => exact (stays rfl).elim
  | fileLen v ho hp => exact (stays rfl).elim
  | hdr k v ho hp => exact (stays rfl).elim
  | passLen v ho => exact (stays rfl).elim
  | din i v ho => exact (stays rfl).elim
  | pass k v ho hk => exact (stays rfl).elim
  | clear he => cases ht
  | illegal w ho hp => cases ht
  | sequence i ho hp hl => cases ht
  | accept i hi ho hl => exact (stays rfl).elim
  | parse ho => exact absurd (hp.symm.trans (hs.parseInEmpty ho)) nofun
  | derive ho => exact deriveStep_enters_keyed hp ht
  | init ho => exact absurd (hp.symm.trans (hs.initInKeyed ho)) nofun
  | decrypt ho => exact (stays rfl).elim

/-- The finish step of a derivation in progress leaves the key derivation function's value (41_kdf.md R82, R86). -/
theorem DerivationInv.key_deriveFinish {s : State} (d : DerivationInv s) (hk : s.kstep = .stretch)
    (hc : s.kdfCount = s.hdrRounds) :
    (deriveFinish s).key = (kdf (s.passBytes s.passLen.toNat) s.seed16 s.seed32 s.hdrRounds.toNat).toWords := by
  change (finalKey s.seed16 s.lblk s.rblk).toWords = _
  rw [d.left hk, d.right hk, hc, kdf]

/-- Settles O22: the step is the finish step, of a derivation that has done all its rounds. -/
theorem finishedKeyIsTheKdfUnderAnyInterleaving : Obligations.FinishedKeyIsTheKdfUnderAnyInterleaving := by
  intro s t hs d h hp ht
  obtain ⟨q, a, r, c, -⟩ | ⟨q, l, rfl, -⟩ | ⟨q, b, rfl⟩ | ⟨q, rfl⟩ := step_cases h
  · obtain ⟨hk, hc, rfl⟩ := c.enters_keyed (hs.moved q a r) hp ht
    exact ⟨DerivationInv.key_deriveFinish (s := s.moved q a r) ⟨d.left, d.right⟩ hk hc, hc⟩
  · cases l with
    | true => cases ht
    | false => exact absurd (hp.symm.trans ht) nofun
  · exact absurd (hp.symm.trans ht) nofun
  · exact absurd (hp.symm.trans ht) nofun

end Sys2Proof.Machine
end

section
/-! BODY_INIT and DECRYPT_BLOCK (42_body_cbc.md R92 to R98): their engine steps under the rule's own conditions, and a body
decrypted block by block as CBC decryption. -/

namespace Sys2Proof.Machine

/-! ## BODY_INIT -/

/-- A word is the one of its number. -/
theorem eq_ofNat_of_toNat_eq {w : Word} {n : Nat} (h : w.toNat = n) : w = BitVec.ofNat 32 n := by
  rw [← h, BitVec.ofNat_toNat, BitVec.setWidth_eq]

section BodyInit

variable {s : State}

/-- The body length does not wrap where the file holds a header (42_body_cbc.md R93). -/
theorem toNat_bodyLen (hl : 124 ≤ s.fileLen.toNat) : s.bodyLen.toNat = s.fileLen.toNat - 124 := by
  simp only [State.bodyLen, headerBytes]
  bv_omega

theorem toNat_bodyLen_mod (hl : 124 ≤ s.fileLen.toNat) : (s.bodyLen % 16#32).toNat = (s.fileLen.toNat - 124) % 16 := by
  rw [BitVec.toNat_umod, toNat_bodyLen hl]
  rfl

theorem toNat_bodyLen_div (hl : 124 ≤ s.fileLen.toNat) : (s.bodyLen / 16#32).toNat = (s.fileLen.toNat - 124) / 16 := by
  rw [BitVec.toNat_udiv, toNat_bodyLen hl]
  rfl

/-- The body is whole blocks (42_body_cbc.md R93). -/
theorem bodyLen_mod_eq_zero_iff (hl : 124 ≤ s.fileLen.toNat) :
    s.bodyLen % 16#32 = 0#32 ↔ (s.fileLen.toNat - 124) % 16 = 0 := by
  rw [← toNat_bodyLen_mod hl, BitVec.toNat_eq]
  rfl

/-! The engine step, an equation per outcome in the order of its checks (42_body_cbc.md R97). -/

theorem initStep_of_twofish (hc : s.cipher = .twofish) : initStep s = s.raise .unsupportedCipher (s.hdrWord 2) 0#32 :=
  if_pos hc

theorem initStep_of_partial (hc : s.cipher ≠ .twofish) (hb : s.bodyLen % 16#32 ≠ 0#32) :
    initStep s = s.raise .truncatedCiphertext s.bodyLen (s.bodyLen % 16#32) := by
  rw [initStep, if_neg hc, if_pos hb]

theorem initStep_of_whole (hc : s.cipher ≠ .twofish) (hb : s.bodyLen % 16#32 = 0#32) :
    initStep s = { s with chain := s.ivWords, blocksLeft := s.bodyLen / 16#32, phase := .body }.complete := by
  rw [initStep, if_neg hc, if_neg (not_not.2 hb)]

end BodyInit

/-- Settles O24: with both checks passed the step loads the header's IV words and the quotient. -/
theorem bodyInitLoadsTheIv : Obligations.BodyInitLoadsTheIv := by
  intro s ha ho hc hl hb
  rw [exec_init_engine ha ho, initStep_of_whole hc ((bodyLen_mod_eq_zero_iff hl).2 hb),
    eq_ofNat_of_toNat_eq (toNat_bodyLen_div hl)]
  rfl

/-- Settles O25: the outcome of each failed check, in the order of the checks. -/
theorem bodyInitErrorsInOrder : Obligations.BodyInitErrorsInOrder := by
  intro s ha ho
  rw [exec_init_engine ha ho]
  refine ⟨fun hc => congrArg _ (initStep_of_twofish hc), fun hc hl hb => congrArg _ ?_⟩
  rw [initStep_of_partial hc (mt (bodyLen_mod_eq_zero_iff hl).1 hb), eq_ofNat_of_toNat_eq (toNat_bodyLen_mod hl),
    eq_ofNat_of_toNat_eq (toNat_bodyLen hl)]

/-! ## DECRYPT_BLOCK -/

/-- A count above 0 does not wrap when it counts down (42_body_cbc.md R94). -/
theorem toNat_sub_one_of_pos {n : Word} (h : 0 < n.toNat) : (n - 1#32).toNat = n.toNat - 1 := by
  bv_omega

/-- Settles O26: the engine step, whose count does not wrap. -/
theorem decryptBlockDecryptsAndChains : Obligations.DecryptBlockDecryptsAndChains := by
  intro s ha ho hb
  rw [exec_decrypt_engine ha ho, ← eq_ofNat_of_toNat_eq (toNat_sub_one_of_pos hb)]
  rfl

/-! ## The inputs that decrypt one block -/

/-- The engine's turn as an input: the step is the meaning of the command in progress (43_control.md R102). -/
theorem step_engine_event {s : State} {i : Instr} {rest : List Event} (hi : s.op.instr = some i)
    (hs : s.sched = .engine :: rest) (hr : s.rst = false) (hc : s.clk = true) (hp : s.powerLost = false) :
    step s = exec i (s.moved rest .engine s.resp) := by
  unfold step
  rw [hs]
  simp only [perform]
  unfold engineTurn
  rw [if_neg (by simp [hp]), if_neg (by simp [hr, hc])]
  simp only [hi]
  rfl

/-- The host's write of a legal command's word to an idle block, as a step: the command is accepted (43_control.md R100). -/
theorem step_accept {s : State} {i : Instr} {rest : List Event}
    (hs : s.sched = writeAt s.params Reg.cmd.offset (encode i) :: rest) (hi : i ≠ .clear) (ho : s.op = .none)
    (he : s.phase ≠ .error) (hl : s.legal i = true) (hr : s.rst = false) (hp : s.powerLost = false) :
    step s = .next ((s.moved rest .host (some ⟨true, 0#32⟩)).accept i) := by
  have hd : (s.moved rest .host (some ⟨true, 0#32⟩)).dropsRequest = false := (State.dropsRequest_eq_false _).2 ⟨ho, he⟩
  have hl' : (s.moved rest .host (some ⟨true, 0#32⟩)).legal i = true := by cases i <;> exact hl
  rw [step_writeAt_cmd hs hr hp (decode_encode i), exec_host hi rfl, State.request, hd, hl']
  rfl

/-- The block is in BODY and idle, and nothing holds the host or the engine. -/
structure AwaitsBlock (s : State) : Prop where
  phase : s.phase = .body
  op : s.op = .none
  rst : s.rst = false
  clk : s.clk = true
  powerLost : s.powerLost = false

/-- The state after a host write that leaves `d` in DIN, with the inputs `rest` to come. -/
def State.withDin (s : State) (d : Words4) (rest : List Event) : State :=
  { s.moved rest .host (some ⟨true, 0#32⟩) with din := d }

/-- The state that the inputs of one block leave (42_body_cbc.md R94), with the inputs `rest` to come. -/
def State.blockDecrypted (s : State) (c : Block) (rest : List Event) : State :=
  { s.withDin c.toWords rest with
    dout := ((aes256Dec (Bytes32.ofWords s.key) c).xor (Block.ofWords s.chain)).toWords,
    chain := c.toWords, blocksLeft := s.blocksLeft - 1#32, op := .none, done := true, agent := .engine }

section OneBlock

variable {s : State} {c : Block} {rest : List Event}

theorem AwaitsBlock.withDin (h : AwaitsBlock s) (d : Words4) (rest : List Event) : AwaitsBlock (s.withDin d rest) :=
  ⟨h.phase, h.op, h.rst, h.clk, h.powerLost⟩

theorem AwaitsBlock.blockDecrypted (h : AwaitsBlock s) (c : Block) (rest : List Event) :
    AwaitsBlock (s.blockDecrypted c rest) :=
  ⟨h.phase, rfl, h.rst, h.clk, h.powerLost⟩

/-- A write of a word of DIN is taken (43_control.md R101). -/
theorem AwaitsBlock.step_writeDin (h : AwaitsBlock s) {i : Fin 4} {v : Word}
    (hs : s.sched = writeAt s.params (Reg.din i).offset v :: rest) : step s = .next (s.withDin (s.din.set i v) rest) :=
  (step_writeAt_reg (r := .din i) nofun hs h.rst h.powerLost).trans (writeReg_din_of_idle i v h.op)

/-- The same write after earlier ones, which show in DIN alone. -/
theorem AwaitsBlock.step_writeDin_again (h : AwaitsBlock s) (i : Fin 4) (v : Word) (d : Words4) (rest : List Event) :
    step (s.withDin d (writeAt s.params (Reg.din i).offset v :: rest)) = .next (s.withDin (d.set i v) rest) :=
  (h.withDin d _).step_writeDin rfl

/-- The four writes of LOADBLK fill DIN (30_encoding.md R74). -/
theorem AwaitsBlock.run_loadBlock (h : AwaitsBlock s) (n : Nat)
    (hs : s.sched =
      writeAt s.params (Reg.din 0).offset c.toWords.w0 :: writeAt s.params (Reg.din 1).offset c.toWords.w1 ::
        writeAt s.params (Reg.din 2).offset c.toWords.w2 :: writeAt s.params (Reg.din 3).offset c.toWords.w3 :: rest) :
    Host.Core.run Sys2Proof.core (n + 4) s = Host.Core.run Sys2Proof.core n (s.withDin c.toWords rest) := by
  rw [run_succ (n + 3) (h.step_writeDin hs), run_succ (n + 2) (h.step_writeDin_again ..),
    run_succ (n + 1) (h.step_writeDin_again ..), run_succ n (h.step_writeDin_again ..)]
  rfl

theorem AwaitsBlock.legal_decrypt (h : AwaitsBlock s) (hb : 0 < s.blocksLeft.toNat) : s.legal .decryptBlock = true := by
  have hb' : 0#32 < s.blocksLeft := BitVec.lt_def.2 hb
  simp [State.legal, h.phase, hb']

/-- The engine step of an accepted DECRYPT_BLOCK decrypts the loaded block (42_body_cbc.md R94). -/
theorem decryptStep_accepted (s : State) (c : Block) (q rest : List Event) :
    decryptStep (((s.withDin c.toWords q).accept .decryptBlock).moved rest .engine (some ⟨true, 0#32⟩)) =
      s.blockDecrypted c rest := by
  simp only [decryptStep, State.complete, State.blockDecrypted, State.accept, State.withDin, State.moved,
    Block.ofWords_toWords, reduceCtorEq, if_false]

/-- The request, accepted, and the engine step decrypt the loaded block (43_control.md R100, R102). -/
theorem AwaitsBlock.run_command (h : AwaitsBlock s) (hb : 0 < s.blocksLeft.toNat) (n : Nat) {q : List Event}
    (hq : q = writeAt s.params Reg.cmd.offset (encode .decryptBlock) :: .engine :: rest) :
    Host.Core.run Sys2Proof.core (n + 2) (s.withDin c.toWords q) =
      Host.Core.run Sys2Proof.core n (s.blockDecrypted c rest) := by
  have hw := h.withDin c.toWords q
  have haccept : step (s.withDin c.toWords q) = .next ((s.withDin c.toWords (.engine :: rest)).accept .decryptBlock) :=
    step_accept hq nofun hw.op (hw.phase ▸ nofun) (hw.legal_decrypt hb) hw.rst hw.powerLost
  have hengine : step ((s.withDin c.toWords (.engine :: rest)).accept .decryptBlock) = .next (s.blockDecrypted c rest) := by
    rw [← decryptStep_accepted s c (.engine :: rest) rest]
    refine Eq.trans (step_engine_event (i := .decryptBlock) rfl rfl h.rst h.clk h.powerLost) ?_
    exact exec_decrypt_engine rfl rfl
  rw [run_succ (n + 1) haccept, run_succ n hengine]

/-- The six inputs of one block, as a run. -/
theorem AwaitsBlock.run_block (h : AwaitsBlock s) (hb : 0 < s.blocksLeft.toNat) (n : Nat)
    (hs : s.sched = decryptInputs s.params c ++ rest) :
    Host.Core.run Sys2Proof.core (n + 6) s = Host.Core.run Sys2Proof.core n (s.blockDecrypted c rest) :=
  (h.run_loadBlock (n + 2) hs).trans (h.run_command hb n rfl)

end OneBlock

/-! ## The blocks of a ciphertext -/

/-- `t` has decrypted the blocks `cs` from `s` on (42_body_cbc.md R92, R95). With no block yet, DOUT and CHAIN are those of
`s`. -/
structure BlocksDecrypted (s : State) (cs : List Block) (t : State) : Prop where
  awaits : AwaitsBlock t
  dout : Block.ofWords t.dout =
    (cbcDec (Bytes32.ofWords s.key) (Block.ofWords s.chain) cs).getLast?.getD (Block.ofWords s.dout)
  chain : Block.ofWords t.chain = cs.getLast?.getD (Block.ofWords s.chain)
  blocksLeft : t.blocksLeft.toNat + cs.length = s.blocksLeft.toNat
  key : t.key = s.key

theorem BlocksDecrypted.nil {s : State} (h : AwaitsBlock s) : BlocksDecrypted s [] s :=
  ⟨h, rfl, rfl, rfl, rfl⟩

/-- One block and then the others: the block is the chaining value of the next, and its plaintext stands in DOUT until then. -/
theorem BlocksDecrypted.cons {s t : State} {c : Block} {cs : List Block} {rest : List Event} (hb : 0 < s.blocksLeft.toNat)
    (h : BlocksDecrypted (s.blockDecrypted c rest) cs t) : BlocksDecrypted s (c :: cs) t where
  awaits := h.awaits
  dout := by
    rw [h.dout, cbcDec, List.getLast?_cons, Option.getD_some]
    simp only [State.blockDecrypted, State.withDin, State.moved, Block.ofWords_toWords]
  chain := by
    rw [h.chain, List.getLast?_cons, Option.getD_some]
    simp only [State.blockDecrypted, Block.ofWords_toWords]
  blocksLeft := by
    have hleft : t.blocksLeft.toNat + cs.length = (s.blocksLeft - 1#32).toNat := h.blocksLeft
    rw [toNat_sub_one_of_pos hb] at hleft
    rw [List.length_cons]
    omega
  key := h.key

/-- The inputs of the blocks, by induction on them. -/
theorem AwaitsBlock.run_blocks {s : State} {cs : List Block} {rest : List Event} (h : AwaitsBlock s)
    (hs : s.sched = decryptAllInputs s.params cs ++ rest) (hn : cs.length ≤ s.blocksLeft.toNat) :
    ∃ t, Host.Core.run Sys2Proof.core (6 * cs.length) s = .next t ∧ BlocksDecrypted s cs t ∧ t.sched = rest := by
  induction cs generalizing s with
  | nil => exact ⟨s, rfl, .nil h, hs⟩
  | cons c cs ih =>
    rw [List.length_cons] at hn
    have hb : 0 < s.blocksLeft.toNat := by omega
    have hs' : s.sched = decryptInputs s.params c ++ (decryptAllInputs s.params cs ++ rest) := by
      rw [hs, decryptAllInputs, List.append_assoc]
    have hn' : cs.length ≤ (s.blocksLeft - 1#32).toNat := by
      rw [toNat_sub_one_of_pos hb]; omega
    obtain ⟨t, hrun, ht, hrest⟩ := ih (h.blockDecrypted c (decryptAllInputs s.params cs ++ rest)) rfl hn'
    exact ⟨t, (h.run_block hb _ hs').trans hrun, ht.cons hb, hrest⟩

/-- Settles O27: of at least one block the last plaintext and the last ciphertext block exist. -/
theorem decryptingBlockByBlockIsCbc : Obligations.DecryptingBlockByBlockIsCbc := by
  intro s cs rest hp ho hr hc hpl hs hne hn
  obtain ⟨t, hrun, ht, hrest⟩ := AwaitsBlock.run_blocks ⟨hp, ho, hr, hc, hpl⟩ hs hn
  obtain ⟨c, cs, rfl⟩ := List.exists_cons_of_ne_nil hne
  refine ⟨t, hrun, ?_, ?_, ht.blocksLeft, ht.awaits.phase, ht.awaits.op, ht.key, hrest⟩
  · rw [ht.dout, cbcDec, List.getLast?_cons, Option.getD_some]
  · rw [ht.chain, List.getLast?_cons, Option.getD_some]

end Sys2Proof.Machine
end

section
/-! Command control (43_control.md R99 to R106): how a request is answered, what an engine turn does, the order of the phases, and
the inputs that a running command holds. -/

namespace Sys2Proof.Machine

/-! ## Requests

The three answers to a request (43_control.md R100), an equation each. -/

section Requests

variable {s : State}

theorem State.request_of_drops (i : Instr) (h : s.op ≠ .none ∨ s.phase = .error) : s.request i = s.dropWrite :=
  if_pos (s.dropsRequest_eq_true.2 h)

theorem State.request_of_legal {i : Instr} (ho : s.op = .none) (he : s.phase ≠ .error) (hl : s.legal i = true) :
    s.request i = s.accept i := by
  rw [State.request, s.dropsRequest_eq_false.2 ⟨ho, he⟩, hl]
  rfl

theorem State.request_of_not_legal {i : Instr} (ho : s.op = .none) (he : s.phase ≠ .error) (hl : s.legal i = false) :
    s.request i = s.raise .sequenceError (encode i) s.phaseWord := by
  rw [State.request, s.dropsRequest_eq_false.2 ⟨ho, he⟩, hl]
  rfl

theorem State.illegalRequest_of_drops (w : Word) (h : s.op ≠ .none ∨ s.phase = .error) :
    s.illegalRequest w = s.dropWrite :=
  if_pos (s.dropsRequest_eq_true.2 h)

theorem State.illegalRequest_of_idle (w : Word) (ho : s.op = .none) (he : s.phase ≠ .error) :
    s.illegalRequest w = s.raise .illegalCommand w 0#32 := by
  rw [State.illegalRequest, s.dropsRequest_eq_false.2 ⟨ho, he⟩]
  rfl

/-- ERROR is the phase of no command but CLEAR (43_control.md R99). -/
theorem State.legal_of_error {i : Instr} (hi : i ≠ .clear) (he : s.phase = .error) : s.legal i = false := by
  cases i with
  | clear => exact absurd rfl hi
  | _ => simp [State.legal, he]

/-- In the host's access a command in its phase is accepted (43_control.md R99, R100). -/
theorem exec_host_of_legal {i : Instr} (hi : i ≠ .clear) (ha : s.agent = .host) (ho : s.op = .none)
    (hl : s.legal i = true) : exec i s = .next (s.accept i) := by
  have he : s.phase ≠ .error := fun he => absurd ((State.legal_of_error hi he).symm.trans hl) nofun
  rw [exec_host hi ha, State.request_of_legal ho he hl]

/-- The phase as a context word is its code (43_control.md R105). -/
theorem State.phaseWord_eq (s : State) : s.phaseWord = s.phase.bits.setWidth 32 := by
  unfold State.phaseWord
  cases s.phase <;> rfl

/-- In the host's access a command out of order raises SequenceError (43_control.md R105). -/
theorem exec_host_of_not_legal {i : Instr} (hi : i ≠ .clear) (ha : s.agent = .host) (ho : s.op = .none)
    (he : s.phase ≠ .error) (hl : s.legal i = false) :
    exec i s = .next (s.raise .sequenceError (encode i) (s.phase.bits.setWidth 32)) := by
  rw [exec_host hi ha, State.request_of_not_legal ho he hl, State.phaseWord_eq]

/-- DECRYPT_BLOCK is in order exactly in BODY with a block left (43_control.md R99). -/
theorem State.legal_decryptBlock_iff (s : State) :
    s.legal .decryptBlock = true ↔ s.phase = .body ∧ s.blocksLeft ≠ 0#32 := by
  simp only [State.legal, Bool.and_eq_true, decide_eq_true_eq, BitVec.pos_iff_ne_zero]

/-- A word that no command encodes to is an illegal request (30_encoding.md R65, 43_control.md R104). -/
theorem writeCmd_of_undefined {w : Word} (h : ∀ i, w ≠ encode i) (s : State) :
    writeCmd w s = .next (s.illegalRequest w) := by
  unfold writeCmd
  split
  · next i hd => exact absurd ((decode_eq_ok_iff w i).1 hd) (h i)
  · rfl

end Requests

/-- Settles O9: the meaning of CLEAR looks at no register. -/
theorem clearResetsTheSession : Obligations.ClearResetsTheSession := fun _ => rfl

/-- Settles O10: in the host's access the command is its request. -/
theorem requestsAreDroppedWhenBusyOrInError : Obligations.RequestsAreDroppedWhenBusyOrInError := by
  intro i s hi ha h
  rw [exec_host hi ha, State.request_of_drops i h]
  rfl

/-- Settles O11: each phase makes its command legal, and only DERIVE_KEY's acceptance sets KSTEP. -/
theorem legalRequestsAreAccepted : Obligations.LegalRequestsAreAccepted := by
  intro s ha ho
  refine ⟨fun hp => ?_, fun hp => ?_, fun hp => ?_, fun hp hb => ?_⟩
  · exact exec_host_of_legal nofun ha ho (decide_eq_true hp)
  · exact exec_host_of_legal nofun ha ho (decide_eq_true hp)
  · exact exec_host_of_legal nofun ha ho (decide_eq_true hp)
  · have hne : s.blocksLeft ≠ 0#32 := fun h0 => by simp [h0] at hb
    exact exec_host_of_legal nofun ha ho (s.legal_decryptBlock_iff.2 ⟨hp, hne⟩)

/-- Settles O12: outside its phase, or for DECRYPT_BLOCK with no block left, a command is not legal. -/
theorem outOfOrderRequestsRaiseSequenceError : Obligations.OutOfOrderRequestsRaiseSequenceError := by
  intro s ha ho he
  refine ⟨fun hp => ?_, fun hp => ?_, fun hp => ?_, fun hp => ?_⟩
  · exact exec_host_of_not_legal nofun ha ho he (decide_eq_false hp)
  · exact exec_host_of_not_legal nofun ha ho he (decide_eq_false hp)
  · exact exec_host_of_not_legal nofun ha ho he (decide_eq_false hp)
  · have hl : ¬ s.legal .decryptBlock = true := by
      rw [s.legal_decryptBlock_iff]
      rintro ⟨hbody, hleft⟩
      exact hp.elim (· hbody) hleft
    exact exec_host_of_not_legal nofun ha ho he (Bool.eq_false_of_not_eq_true hl)

/-- Settles O13: the write as a step, of a word that is no command's encoding. -/
theorem undefinedWordsRaiseIllegalCommand : Obligations.UndefinedWordsRaiseIllegalCommand := by
  intro s w rest hs hr hp h1 h2 h3 h4 h5
  have hw : ∀ i, w ≠ encode i := by
    intro i
    cases i with
    | clear => exact h1
    | parseHeader => exact h2
    | deriveKey => exact h3
    | bodyInit => exact h4
    | decryptBlock => exact h5
  have hstep : step s = .next ((s.moved rest .host (some ⟨true, 0#32⟩)).illegalRequest w) :=
    (step_writeAt_reg (r := .cmd) nofun hs hr hp).trans (writeCmd_of_undefined hw _)
  rw [hstep]
  exact ⟨fun ho he => congrArg _ (State.illegalRequest_of_idle w ho he),
    fun h => congrArg _ (State.illegalRequest_of_drops w h)⟩

/-! ## Engine turns -/

/-- With no enabled engine step the engine's turn does nothing (43_control.md R102; 60_exceptions.md R137;
70_reset_and_hazards.md R139). -/
theorem engineTurn_of_not_enabled {s : State} (hp : s.powerLost = false)
    (h : s.op = .none ∨ s.rst = true ∨ s.clk = false) : engineTurn s = .next s := by
  rw [engineTurn, hp]
  obtain ho | hr | hc := h
  · simp [ho, Op.instr]
  · simp [hr]
  · simp [hc]

/-- Settles O6: the turn by its name, and the turn with no input left. -/
theorem engineTurnRunsTheCommandInProgress : Obligations.EngineTurnRunsTheCommandInProgress :=
  fun _ _ hi hr hc hp => ⟨fun _ hs => step_engine_event hi hs hr hc hp, fun hs => step_engine hi hs hr hc hp⟩

/-- Settles O7: both kinds of step are an engine turn, of the state with its inputs moved on. -/
theorem withoutAnEnabledStepTheStateIsHeld : Obligations.WithoutAnEnabledStepTheStateIsHeld := by
  intro s hp h
  refine ⟨fun rest hs => ?_, fun hs => ?_⟩
  · rw [step, hs]
    exact engineTurn_of_not_enabled (s := { s with sched := rest }) hp h
  · rw [step, hs]
    exact engineTurn_of_not_enabled hp h

/-! ## The order of the phases -/

/-- A session's phase stays, takes the next step of 43_control.md R99, or becomes ERROR. -/
def Phase.MovesForward (p q : Phase) : Prop :=
  q = p ∨ q = .error ∨ (p = .empty ∧ q = .header) ∨ (p = .header ∧ q = .keyed) ∨ (p = .keyed ∧ q = .body)

theorem phase_parseStep (s : State) : (parseStep s).phase = .error ∨ (parseStep s).phase = .header := by
  obtain ⟨e, i0, i1, h, -⟩ | ⟨c, h⟩ := parseStep_shape s <;> rw [h]
  · exact .inl rfl
  · exact .inr rfl

theorem phase_deriveStep (s : State) :
    (deriveStep s).phase = .error ∨ (deriveStep s).phase = s.phase ∨ (deriveStep s).phase = .keyed := by
  obtain ⟨e, i0, i1, h, -⟩ | ⟨l, r, c, h⟩ | h | h | h := deriveStep_shape s <;> rw [h]
  · exact .inl rfl
  · exact .inr (.inl rfl)
  · exact .inr (.inl rfl)
  · exact .inr (.inr rfl)
  · exact .inr (.inl rfl)

theorem phase_initStep (s : State) : (initStep s).phase = .error ∨ (initStep s).phase = .body := by
  obtain ⟨e, i0, i1, h, -⟩ | ⟨c, b, h⟩ := initStep_shape s <;> rw [h]
  · exact .inl rfl
  · exact .inr rfl

/-- A change that does not end the session moves its phase forward: each engine step starts in its command's phase
(43_control.md R99). -/
theorem Change.movesForward {s t : State} (c : Change false s t) (hs : SessionInv s) : s.phase.MovesForward t.phase := by
  cases c with
  | keep => exact .inl rfl
  | drop => exact .inl rfl
  | status v => exact .inl rfl
  | ctrl v => exact .inl rfl
  | fileLen v ho hp => exact .inl rfl
  | hdr k v ho hp => exact .inl rfl
  | passLen v ho => exact .inl rfl
  | din i v ho => exact .inl rfl
  | pass k v ho hk => exact .inl rfl
  | clear he => cases he
  | illegal w ho hp => exact .inr (.inl rfl)
  | sequence i ho hp hl => exact .inr (.inl rfl)
  | accept i hi ho hl => exact .inl rfl
  | parse ho =>
    obtain h | h := phase_parseStep s
    · exact .inr (.inl h)
    · exact .inr (.inr (.inl ⟨hs.parseInEmpty ho, h⟩))
  | derive ho =>
    obtain h | h | h := phase_deriveStep s
    · exact .inr (.inl h)
    · exact .inl h
    · exact .inr (.inr (.inr (.inl ⟨hs.deriveInHeader ho, h⟩)))
  | init ho =>
    obtain h | h := phase_initStep s
    · exact .inr (.inl h)
    · exact .inr (.inr (.inr (.inr ⟨hs.initInKeyed ho, h⟩)))
  | decrypt ho => exact .inl rfl

/-- Settles O31: a step is a change, or an input on a pin, of which only the assertion of `rst` touches the phase, and that ends
the session. -/
theorem phaseMovesForward : Obligations.PhaseMovesForward := by
  intro s t hs h he
  obtain ⟨q, a, r, c, -⟩ | ⟨q, l, rfl, hl⟩ | ⟨q, b, rfl⟩ | ⟨q, rfl⟩ := step_cases h
  · rw [he] at c
    exact c.movesForward (hs.moved q a r)
  · cases l with
    | true => exact absurd (he.symm.trans (hl rfl)) nofun
    | false => exact .inl rfl
  · exact .inl rfl
  · exact .inl rfl

/-! ## The inputs of a running command -/

/-- Settles O33: a step writes an input only where it ends the session or no command runs. -/
theorem inputsOfARunningCommandAreHeld : Obligations.InputsOfARunningCommandAreHeld := by
  intro s t ho he h
  obtain ⟨-, hfile, hpass, hdin, hmem⟩ := step_writes h
  refine ⟨by simpa [he, ho] using hfile, by simpa [he, ho] using hpass, by simpa [he, ho] using hdin, fun a => ?_⟩
  have hm : t.mem = s.mem := by simpa [he, ho] using hmem
  rw [hm]

/-! The writes that are dropped (43_control.md R101), the counterparts of those that are taken. -/

section DroppedWrites

variable {s : State}

theorem State.writeInput_of_busy (t : State) (ho : s.op ≠ .none) : s.writeInput t = s.dropWrite :=
  if_pos (s.busy_eq_true.2 ho)

theorem State.writeHeaderInput_of_held (t : State) (h : s.op ≠ .none ∨ s.phase ≠ .empty) :
    s.writeHeaderInput t = s.dropWrite :=
  if_pos (by simpa [State.busy, State.headerLocked] using h)

/-- A write to FILE_LEN or HDR while a command runs or the header is locked (43_control.md R101; 10_state.md R37). -/
theorem writeReg_header_of_held {r : Reg} (v : Word) (hr : r = .fileLen ∨ ∃ k, r = .hdr k)
    (h : s.op ≠ .none ∨ s.phase ≠ .empty) : writeReg r v s = .next s.dropWrite := by
  obtain rfl | ⟨k, rfl⟩ := hr <;> exact congrArg _ (State.writeHeaderInput_of_held _ h)

/-- A write to PASS_LEN, DIN or PASS while a command runs (43_control.md R101). -/
theorem writeReg_input_of_busy {r : Reg} (v : Word) (hr : r = .passLen ∨ (∃ i, r = .din i) ∨ ∃ k, r = .pass k)
    (ho : s.op ≠ .none) : writeReg r v s = .next s.dropWrite := by
  obtain rfl | ⟨i, rfl⟩ | ⟨k, rfl⟩ := hr <;> exact congrArg _ (State.writeInput_of_busy _ ho)

end DroppedWrites

/-- Settles O44: the write reaches its register, whose input is held. -/
theorem writesToHeldInputsAreDropped : Obligations.WritesToHeldInputsAreDropped := by
  intro s r v rest hr hp hl hs h
  have hex : ∀ k, r = .pass k → k < s.params.passMax.toNat / 4 := by
    rintro k rfl
    have hk : k < s.params.passMax.toNat / 4 ∧ s.op ≠ .none := by simpa using h
    exact hk.1
  have hstep : step s = writeReg r v (s.moved rest .host (some ⟨true, 0#32⟩)) :=
    step_writeReg hs (regAt_offset s.params r hex) (Reg.offset_aligned hl hex).1 r.offset_mod_four hr hp
  rw [hstep]
  obtain ⟨hreg, hheld⟩ | ⟨hreg, ho⟩ := h
  · exact writeReg_header_of_held v hreg hheld
  · exact writeReg_input_of_busy v (hreg.imp_right (Or.imp_right fun ⟨k, _, hk⟩ => ⟨k, hk⟩)) ho

end Sys2Proof.Machine
end

section
/-! AES-256 decryption (49_primitives.md R114 to R121): each transformation of a round is undone by its inverse, so the rounds are,
whatever the round keys. -/

namespace Sys2Proof

@[simp] theorem Quad.xor_xor_cancel_right (x y : Quad) : (x.xor y).xor y = x := by
  simp [Quad.xor]

@[simp] theorem Block.xor_xor_cancel_right (x y : Block) : (x.xor y).xor y = x := by
  simp [Block.xor]

namespace Machine

/-! ## Products in GF(2^8) (49_primitives.md R114) -/

section Field

variable (a b c : Byte)

theorem ite_bool_xor (p q : Bool) :
    (if (p ^^ q) = true then a else 0x00#8) = (if p = true then a else 0x00#8) ^^^ (if q = true then a else 0x00#8) := by
  cases p <;> cases q <;> simp

theorem xtime_xor : xtime (a ^^^ b) = xtime a ^^^ xtime b := by
  unfold xtime
  rw [BitVec.shiftLeft_xor_distrib, BitVec.getLsbD_xor, ite_bool_xor]
  ac_rfl

theorem xtimes_xor (n : Nat) : xtimes n (a ^^^ b) = xtimes n a ^^^ xtimes n b := by
  induction n with
  | zero => rfl
  | succ n ih => rw [xtimes, ih, xtime_xor]; rfl

theorem gfMulBits_xor_left (n : Nat) : gfMulBits n (a ^^^ b) c = gfMulBits n a c ^^^ gfMulBits n b c := by
  induction n with
  | zero => exact (BitVec.xor_self (x := 0x00#8)).symm
  | succ n ih =>
    simp only [gfMulBits, ih, xtimes_xor]
    cases c.getLsbD n with
    | false => simp
    | true =>
      simp only [if_true]
      ac_rfl

/-- A product is linear in its first factor. -/
theorem gfMul_xor_left : gfMul (a ^^^ b) c = gfMul a c ^^^ gfMul b c :=
  gfMulBits_xor_left a b c 8

end Field

/-! ## MixColumns (49_primitives.md R119)

Both matrices are linear and circulant, so InvMixColumns undoes MixColumns on every column as soon as it does on the columns with
one byte in row 0. -/

section MixColumns

variable (a : Byte)

theorem xtime_zero : xtime 0x00#8 = 0x00#8 := rfl

theorem gfMul_01 : gfMul a 0x01#8 = a := by simp [gfMul, gfMulBits, xtimes]

theorem gfMul_02 : gfMul a 0x02#8 = xtime a := by simp [gfMul, gfMulBits, xtimes]

theorem gfMul_03 : gfMul a 0x03#8 = a ^^^ xtime a := by simp [gfMul, gfMulBits, xtimes]

theorem gfMul_09 : gfMul a 0x09#8 = a ^^^ xtime (xtime (xtime a)) := by simp [gfMul, gfMulBits, xtimes]

theorem gfMul_0b : gfMul a 0x0b#8 = a ^^^ xtime a ^^^ xtime (xtime (xtime a)) := by simp [gfMul, gfMulBits, xtimes]

theorem gfMul_0d : gfMul a 0x0d#8 = a ^^^ xtime (xtime a) ^^^ xtime (xtime (xtime a)) := by
  simp [gfMul, gfMulBits, xtimes]

theorem gfMul_0e : gfMul a 0x0e#8 = xtime a ^^^ xtime (xtime a) ^^^ xtime (xtime (xtime a)) := by
  simp [gfMul, gfMulBits, xtimes]

theorem mixColumnFwd_row0 :
    mixColumnFwd ⟨a, 0x00#8, 0x00#8, 0x00#8⟩ = ⟨xtime a, a, a, a ^^^ xtime a⟩ := by
  simp [mixColumnFwd, mixColumn, xtime_zero, gfMul_01, gfMul_02, gfMul_03]

/-- As polynomials in `xtime` the entries of the two matrices' product are 1 and 0, before any reduction. -/
theorem mixColumnInv_mixColumnFwd_row0 :
    mixColumnInv (mixColumnFwd ⟨a, 0x00#8, 0x00#8, 0x00#8⟩) = ⟨a, 0x00#8, 0x00#8, 0x00#8⟩ := by
  rw [mixColumnFwd_row0]
  simp only [mixColumnInv, mixColumn, gfMul_09, gfMul_0b, gfMul_0d, gfMul_0e, xtime_xor, Quad.mk.injEq]
  exact ⟨by grind, by grind, by grind, by grind⟩

theorem mixColumn_xor (c0 c1 c2 c3 : Byte) (x y : Quad) :
    mixColumn c0 c1 c2 c3 (x.xor y) = (mixColumn c0 c1 c2 c3 x).xor (mixColumn c0 c1 c2 c3 y) := by
  simp only [mixColumn, Quad.xor, gfMul_xor_left, Quad.mk.injEq]
  exact ⟨by ac_rfl, by ac_rfl, by ac_rfl, by ac_rfl⟩

theorem mixColumn_rotWord (c0 c1 c2 c3 : Byte) (q : Quad) :
    mixColumn c0 c1 c2 c3 (rotWord q) = rotWord (mixColumn c0 c1 c2 c3 q) := rfl

/-- A column is the sum of its bytes, each in row 0 of a rotated column. -/
theorem quad_eq_xor_rotWord (a b c d : Byte) :
    (⟨a, b, c, d⟩ : Quad) =
      Quad.xor (Quad.xor ⟨a, 0x00#8, 0x00#8, 0x00#8⟩ (rotWord (rotWord (rotWord ⟨b, 0x00#8, 0x00#8, 0x00#8⟩))))
        (Quad.xor (rotWord (rotWord ⟨c, 0x00#8, 0x00#8, 0x00#8⟩)) (rotWord ⟨d, 0x00#8, 0x00#8, 0x00#8⟩)) := by
  simp [Quad.xor, rotWord]

theorem mixColumnInv_mixColumnFwd_xor (x y : Quad) :
    mixColumnInv (mixColumnFwd (x.xor y)) = (mixColumnInv (mixColumnFwd x)).xor (mixColumnInv (mixColumnFwd y)) := by
  simp only [mixColumnInv, mixColumnFwd, mixColumn_xor]

theorem mixColumnInv_mixColumnFwd_rotWord (q : Quad) :
    mixColumnInv (mixColumnFwd (rotWord q)) = rotWord (mixColumnInv (mixColumnFwd q)) := by
  simp only [mixColumnInv, mixColumnFwd, mixColumn_rotWord]

theorem mixColumnInv_mixColumnFwd (q : Quad) : mixColumnInv (mixColumnFwd q) = q := by
  obtain ⟨a, b, c, d⟩ := q
  rw [quad_eq_xor_rotWord]
  simp only [mixColumnInv_mixColumnFwd_xor, mixColumnInv_mixColumnFwd_rotWord, mixColumnInv_mixColumnFwd_row0]

theorem invMixColumns_mixColumns (s : Block) : invMixColumns (mixColumns s) = s := by
  simp only [invMixColumns, mixColumns, mixColumnInv_mixColumnFwd]

end MixColumns

/-! ## SubBytes, ShiftRows and AddRoundKey (49_primitives.md R117, R119) -/

theorem invSbox_sbox (a : Byte) : invSbox (sbox a) = a := by
  revert a
  decide +kernel

theorem map_invSbox_map_sbox (q : Quad) : (q.map sbox).map invSbox = q := by
  simp only [Quad.map, invSbox_sbox]

theorem invSubBytes_subBytes (s : Block) : invSubBytes (subBytes s) = s := by
  simp only [invSubBytes, subBytes, map_invSbox_map_sbox]

theorem invShiftRows_shiftRows (s : Block) : invShiftRows (shiftRows s) = s := rfl

theorem addRoundKey_addRoundKey (ws : List Quad) (rk : Nat) (s : Block) :
    addRoundKey ws rk (addRoundKey ws rk s) = s :=
  s.xor_xor_cancel_right (roundKey ws rk)

/-! ## The rounds (49_primitives.md R120, R121) -/

/-- The inverse rounds undo `n` full rounds and the last round's SubBytes and ShiftRows, with any key schedule. -/
theorem decRounds_encRounds (ws : List Quad) (n : Nat) (x : Block) :
    decRounds ws n (shiftRows (subBytes (encRounds ws n x))) = x := by
  induction n with
  | zero =>
    rw [decRounds, encRounds, invShiftRows_shiftRows, invSubBytes_subBytes, addRoundKey_addRoundKey]
  | succ n ih =>
    rw [decRounds, invShiftRows_shiftRows, invSubBytes_subBytes, encRounds, addRoundKey_addRoundKey,
      invMixColumns_mixColumns, ih]

/-- Settles O53: the two uses of round key 14 cancel, and the inverse rounds undo the rounds. -/
theorem aesDecryptionInvertsEncryption : Obligations.AesDecryptionInvertsEncryption := by
  intro k x
  rw [aes256Dec, aes256Enc, addRoundKey_addRoundKey, decRounds_encRounds]

end Machine
end Sys2Proof
end

section
/-! The primitives' tables, padding and examples (49_primitives.md R108, R113, R116, R117, R120): the S-box for its 256 bytes,
SHA-256's padding for every message, and the standards' examples by evaluation. -/

namespace Sys2Proof.Machine

/-! ## The S-box (49_primitives.md R116, R117) -/

/-- The inverse `a^254` of R116, as the product of `a^2`, `a^4`, .., `a^128`. -/
def gfInv (a : Byte) : Byte :=
  ((List.range 7).foldl (fun p _ => (gfMul p.1 (gfMul p.2 p.2), gfMul p.2 p.2)) (1#8, a)).1

/-- The affine map of R116. -/
def sboxAffine (b : Byte) : Byte :=
  b ^^^ b.rotateLeft 1 ^^^ b.rotateLeft 2 ^^^ b.rotateLeft 3 ^^^ b.rotateLeft 4 ^^^ 0x63#8

theorem sbox_eq_sboxAffine_gfInv (a : Byte) : sbox a = sboxAffine (gfInv a) := by
  revert a
  decide +kernel

/-- Settles O54: the table by its 256 entries, and InvSbox as in the cipher's rounds. -/
theorem sboxIsTheAffineInverse : Obligations.SboxIsTheAffineInverse :=
  fun a => ⟨sbox_eq_sboxAffine_gfInv a, invSbox_sbox a⟩

/-! ## SHA-256's padding (49_primitives.md R108) -/

theorem length_shaLengthBytes (n : Nat) : (shaLengthBytes n).length = 8 := rfl

theorem isPrefix_shaPad (m : List Byte) : m <+: shaPad m :=
  ⟨_, (List.append_assoc _ _ _).symm⟩

/-- The 0x80 byte, the zero bytes and the 8 length bytes fill the last block. -/
theorem length_shaPad (m : List Byte) : (shaPad m).length = 64 * shaBlockCount m.length := by
  have hlen : (shaPad m).length = m.length + (shaZeroCount m.length + 1) + 8 := by
    simp only [shaPad, List.length_append, List.length_cons, List.length_replicate, length_shaLengthBytes]
  rw [hlen, shaZeroCount, shaBlockCount]
  omega

theorem length_wordsBE : ∀ l : List Byte, (wordsBE l).length = l.length / 4
  | [] | [_] | [_, _] | [_, _, _] => by simp [wordsBE]
  | _ :: _ :: _ :: _ :: rest => by
    rw [wordsBE, List.length_cons, length_wordsBE rest]
    simp only [List.length_cons]
    omega

/-- Settles O55: the words are a quarter of the bytes. -/
theorem paddedMessageIsWholeBlocks : Obligations.PaddedMessageIsWholeBlocks := by
  intro m
  have hwords : (wordsBE (shaPad m)).length = 16 * shaBlockCount m.length := by
    rw [length_wordsBE, length_shaPad]
    omega
  exact ⟨length_shaPad m, isPrefix_shaPad m, hwords⟩

/-! ## The standards' examples (49_primitives.md R113, R120, R121) -/

/-- Settles O56: SHA-256 and the encryption are evaluated; decryption undoes the encryption. -/
theorem primitivesMatchTheStandardExamples : Obligations.PrimitivesMatchTheStandardExamples := by
  refine ⟨by decide +kernel, ?_⟩
  intro k x y
  have henc : aes256Enc k x = y := by decide +kernel
  exact ⟨henc, henc ▸ aesDecryptionInvertsEncryption k x⟩

end Sys2Proof.Machine
end

section
/-! Exceptions (60_exceptions.md): error entry, which steps stop, how an error is entered and kept, and the interrupt output. -/

namespace Sys2Proof.Machine

/-! ## Error entry -/

/-- Settles O28: the literals are the reset values of the ranges. -/
theorem errorEntryScrubsAndRecords : Obligations.ErrorEntryScrubsAndRecords := fun _ _ _ _ => rfl

/-! ## Which steps stop (60_exceptions.md R137; log 11, log 19) -/

theorem exec_next (i : Instr) (s : State) : ∃ t, exec i s = .next t := by
  obtain ⟨-, h⟩ | ⟨-, -, -, ⟨-, h⟩ | ⟨-, h⟩ | ⟨-, h⟩ | ⟨-, h⟩⟩ | ⟨-, -, h⟩ := exec_cases i s <;> exact ⟨_, h⟩

theorem writeCmd_next (w : Word) (s : State) : ∃ t, writeCmd w s = .next t := by
  unfold writeCmd
  split
  · exact exec_next _ s
  · exact ⟨_, rfl⟩

theorem memWrite_next (off : Nat) (v : Word) (s : State) : ∃ t, memWrite off v s = .next t := by
  unfold memWrite
  split
  · next r _ =>
    cases r with
    | cmd => exact writeCmd_next v s
    | _ => exact ⟨_, rfl⟩
  · exact ⟨_, rfl⟩

theorem hostRead_next (off bytes : Nat) (s : State) : ∃ t, hostRead off bytes s = .next t := by
  unfold hostRead
  split
  · exact ⟨_, rfl⟩
  · split <;> exact ⟨_, rfl⟩

theorem hostWrite_next (off bytes : Nat) (v : Word) (s : State) : ∃ t, hostWrite off bytes v s = .next t := by
  unfold hostWrite
  split
  · exact ⟨_, rfl⟩
  · split
    · exact memWrite_next off v _
    · exact ⟨_, rfl⟩

theorem hostAccess_next (a : Access) (s : State) : ∃ t, hostAccess a s = .next t := by
  unfold hostAccess
  split
  · split
    · exact hostRead_next _ _ _
    · exact ⟨_, rfl⟩
  · split
    · exact hostWrite_next _ _ _ _
    · exact ⟨_, rfl⟩

theorem engineTurn_next {s : State} (hp : s.powerLost = false) : ∃ t, engineTurn s = .next t := by
  unfold engineTurn
  rw [if_neg (by simp [hp])]
  split
  · exact ⟨_, rfl⟩
  · split
    · exact exec_next _ _
    · exact ⟨_, rfl⟩

theorem perform_next {s : State} (hp : s.powerLost = false) (e : Event) : ∃ t, perform e s = .next t := by
  cases e with
  | host a =>
    obtain ⟨t, h⟩ := hostAccess_next a s
    exact ⟨t, (if_neg (by simp [hp])).trans h⟩
  | engine => exact engineTurn_next hp
  | rst level => exact ⟨_, rfl⟩
  | clock running => exact ⟨_, rfl⟩
  | powerOff => exact ⟨_, rfl⟩

theorem step_next {s : State} (hp : s.powerLost = false) : ∃ t, step s = .next t := by
  unfold step
  split
  · exact engineTurn_next hp
  · exact perform_next (by exact hp) _

theorem engineTurn_of_lost {s : State} (hp : s.powerLost = true) : engineTurn s = .fault .stateLost := if_pos hp

/-- An access after the loss of power is a fault, whatever its address (60_exceptions.md R137; log 11). -/
theorem step_host_of_lost {s : State} {a : Access} {rest : List Event} (hp : s.powerLost = true)
    (hs : s.sched = .host a :: rest) : step s = .fault .stateLost := by
  rw [step, hs]
  exact if_pos hp

/-- Settles O8: each layer below the test for the loss of power answers a next state, and the test comes first. -/
theorem onlyLostStateStops : Obligations.OnlyLostStateStops := by
  refine ⟨exec_next, fun s => step_next, fun s hp hs => ?_, fun s rest hp hs => ?_, fun s a rest => step_host_of_lost⟩
  · rw [step, hs]
    exact engineTurn_of_lost hp
  · rw [step, hs]
    exact engineTurn_of_lost (s := { s with sched := rest }) hp

/-! ## How an error is entered -/

/-- `t` is `s` with error entry applied, with a code that rules raise (60_exceptions.md R124, R125). -/
def State.Raises (s t : State) : Prop := ∃ e i0 i1, t = s.raise e i0 i1 ∧ e ≠ .none ∧ e ≠ .decryptionFailed

/-- The code and context of an error entry can be read off the state after it (60_exceptions.md R125). -/
theorem State.Raises.recorded {s t : State} (h : s.Raises t) :
    t = s.raise t.errCode t.errInfo0 t.errInfo1 ∧ t.errCode ≠ .none ∧ t.errCode ≠ .decryptionFailed := by
  obtain ⟨e, i0, i1, rfl, hn, hd⟩ := h
  exact ⟨rfl, hn, hd⟩

section EntersError

variable {s : State}

theorem raises_request {i : Instr} (hs : s.phase ≠ .error) (h : (s.request i).phase = .error) : s.Raises (s.request i) := by
  obtain ⟨-, hr⟩ | ⟨-, -, hr⟩ | ⟨-, -, hr⟩ := s.request_cases i <;> rw [hr] at h ⊢
  · exact absurd h hs
  · exact absurd h hs
  · exact ⟨_, _, _, rfl, nofun, nofun⟩

theorem raises_parseStep (h : (parseStep s).phase = .error) : s.Raises (parseStep s) := by
  obtain hr | ⟨c, hr⟩ := parseStep_shape s
  · exact hr
  · rw [hr] at h; cases h

theorem raises_deriveStep (hs : s.phase ≠ .error) (h : (deriveStep s).phase = .error) : s.Raises (deriveStep s) := by
  obtain hr | ⟨l, r, c, hr⟩ | hr | hr | hr := deriveStep_shape s
  · exact hr
  · rw [hr] at h; exact absurd h hs
  · rw [hr] at h; exact absurd h hs
  · rw [hr] at h; cases h
  · rw [hr] at h; exact absurd h hs

theorem raises_initStep (h : (initStep s).phase = .error) : s.Raises (initStep s) := by
  obtain hr | ⟨c, b, hr⟩ := initStep_shape s
  · exact hr
  · rw [hr] at h; cases h

end EntersError

/-- A command enters ERROR by error entry on the state before, as a request or as an engine step (60_exceptions.md R126). -/
theorem raises_exec {i : Instr} {s t : State} (h : exec i s = .next t) (hs : s.phase ≠ .error) (ht : t.phase = .error) :
    s.Raises t := by
  obtain ⟨-, he⟩ | ⟨-, -, -, ⟨-, he⟩ | ⟨-, he⟩ | ⟨-, he⟩ | ⟨-, he⟩⟩ | ⟨-, -, he⟩ := exec_cases i s <;> rw [he] at h <;> cases h
  · cases ht
  · exact raises_parseStep ht
  · exact raises_deriveStep hs ht
  · exact raises_initStep ht
  · exact absurd ht hs
  · exact raises_request hs ht

/-- Settles O29: the error entry that a command makes, by what it records. -/
theorem errorsArePrecise : Obligations.ErrorsArePrecise := fun _ _ _ h hs ht => (raises_exec h hs ht).recorded

/-! ## How an error is kept and left -/

/-- `t` has the phase, the operation and the error record of `s`. -/
structure KeepsError (s t : State) : Prop where
  phase : t.phase = s.phase
  op : t.op = s.op
  errCode : t.errCode = s.errCode
  errInfo0 : t.errInfo0 = s.errInfo0
  errInfo1 : t.errInfo1 = s.errInfo1

/-- In ERROR a change that does not end the session keeps the error: a request is dropped and no engine step is enabled
(60_exceptions.md R127). -/
theorem Change.keepsError {s t : State} (c : Change false s t) (hp : s.phase = .error) (ho : s.op = .none) :
    KeepsError s t := by
  cases c with
  | keep => constructor <;> rfl
  | drop => constructor <;> rfl
  | status v => constructor <;> rfl
  | ctrl v => constructor <;> rfl
  | fileLen v _ _ => constructor <;> rfl
  | hdr k v _ _ => constructor <;> rfl
  | passLen v _ => constructor <;> rfl
  | din i v _ => constructor <;> rfl
  | pass k v _ _ => constructor <;> rfl
  | clear he => cases he
  | illegal w _ hne => exact absurd hp hne
  | sequence i _ hne _ => exact absurd hp hne
  | accept i hi _ hl => exact absurd ((State.legal_of_error hi hp).symm.trans hl) nofun
  | parse hop => exact absurd (ho.symm.trans hop) nofun
  | derive hop => exact absurd (ho.symm.trans hop) nofun
  | init hop => exact absurd (ho.symm.trans hop) nofun
  | decrypt hop => exact absurd (ho.symm.trans hop) nofun

/-- In ERROR a step that does not end the session keeps the error (60_exceptions.md R127, R128). -/
theorem step_keepsError {s t : State} (hp : s.phase = .error) (ho : s.op = .none) (h : step s = .next t)
    (he : s.endsSession = false) : KeepsError s t := by
  obtain ⟨q, a, r, c, -⟩ | ⟨q, l, rfl, hl⟩ | ⟨q, b, rfl⟩ | ⟨q, rfl⟩ := step_cases h
  · rw [he] at c
    obtain ⟨hphase, hop, hcode, hinfo0, hinfo1⟩ := c.keepsError hp ho
    exact ⟨hphase, hop, hcode, hinfo0, hinfo1⟩
  · cases l with
    | true => exact absurd (he.symm.trans (hl rfl)) nofun
    | false => constructor <;> rfl
  · constructor <;> rfl
  · constructor <;> rfl

/-- The inputs that end a session (43_control.md R106). -/
theorem endsSession_cases {s : State} (he : s.endsSession = true) :
    (∃ rest, s.sched = .rst true :: rest) ∨
    (s.rst = false ∧ ∃ rest, s.sched = writeAt s.params Reg.cmd.offset (encode .clear) :: rest) := by
  unfold State.endsSession at he
  split at he
  · exact .inl ⟨_, ‹_›⟩
  · next addr bytes v rest hs =>
    simp only [Bool.and_eq_true, Bool.not_eq_true', decide_eq_true_eq] at he
    obtain ⟨⟨⟨hr, hoff⟩, rfl⟩, rfl⟩ := he
    obtain ⟨rfl, -⟩ := windowOffset_eq_some s.params hoff
    exact .inr ⟨hr, rest, hs⟩
  · cases he

/-- A step that ends the session is the assertion of `rst` or CLEAR (43_control.md R103; 70_reset_and_hazards.md R139). -/
theorem step_of_endsSession {s t : State} (he : s.endsSession = true) (h : step s = .next t) :
    ∃ u : State, t = u.setRst true ∨ t = u.clearSession := by
  obtain ⟨rest, hs⟩ | ⟨hr, rest, hs⟩ := endsSession_cases he
  · rw [step, hs] at h
    cases h
    exact ⟨_, .inl rfl⟩
  · cases hp : s.powerLost with
    | true => rw [step_host_of_lost hp hs] at h; cases h
    | false =>
      rw [step_writeAt_cmd hs hr hp (decode_encode .clear)] at h
      cases h
      exact ⟨_, .inr rfl⟩

/-- Settles O30: a step that does not end the session keeps the error, and both that end it clear the registers. -/
theorem firstErrorIsKeptUntilClearOrReset : Obligations.FirstErrorIsKeptUntilClearOrReset := by
  intro s t hp ho h
  constructor
  · intro he
    obtain ⟨hphase, hop, hcode, hinfo0, hinfo1⟩ := step_keepsError hp ho h he
    exact ⟨hphase.trans hp, hop.trans ho, hcode, hinfo0, hinfo1⟩
  · intro he
    obtain ⟨u, rfl | rfl⟩ := step_of_endsSession he h
    · exact ⟨rfl, rfl, rfl, rfl, rfl⟩
    · exact ⟨rfl, rfl, rfl, rfl, rfl⟩

/-! ## The interrupt output (60_exceptions.md R130) -/

/-- Bit 0 of CTRL (10_state.md R16). -/
theorem State.ctrlWord_getLsbD_zero (s : State) : s.ctrlWord.getLsbD 0 = s.irqEn := by
  rw [State.ctrlWord_eq]
  cases s.irqEn <;> rfl

/-- With DONE at 0 the output is low, whatever IRQ_EN is. -/
theorem State.irq_of_not_done {s : State} (hd : s.done = false) : s.irq = false := by
  rw [State.irq, hd, Bool.and_false]

/-- With DONE at 1 the output is IRQ_EN. -/
theorem State.irq_of_done {s : State} (hd : s.done = true) : s.irq = s.irqEn := by
  rw [State.irq, hd, Bool.and_true]

/-- Settles O48: the bits that CTRL and STATUS read, and what each event leaves in DONE. -/
theorem interruptFollowsDoneAndEnable : Obligations.InterruptFollowsDoneAndEnable := by
  refine ⟨fun s => ?reads, fun s => rfl, fun s e i0 i1 => ⟨State.irq_of_done rfl, State.irq_of_done rfl⟩,
    fun s v hv => State.irq_of_not_done ?ack,
    fun s i => ⟨State.irq_of_not_done rfl, State.irq_of_not_done rfl, State.irq_of_not_done rfl⟩⟩
  case reads =>
    have hdone : s.statusWord.getLsbD 1 = s.done := s.statusWord_getLsbD 1
    rw [State.readReg, State.readReg, s.ctrlWord_getLsbD_zero, hdone, State.irq]
  case ack =>
    change (s.done && !v.getLsbD 1) = false
    rw [hv, Bool.not_true, Bool.and_false]

end Sys2Proof.Machine
end

section
/-! Reset and hazards (70_reset_and_hazards.md): the input `rst`, and the bound on the engine steps of a running command. -/

namespace Sys2Proof.Machine

/-! ## The input `rst` (70_reset_and_hazards.md R139; log 5, log 11) -/

/-- A level on `rst` as a step. -/
theorem step_rst {s : State} {level : Bool} {rest : List Event} (hs : s.sched = .rst level :: rest) :
    step s = .next ({ s with sched := rest }.setRst level) := by
  rw [step, hs]
  rfl

/-- Settles O45: the assertion and the deassertion are the level that `State.setRst` gives, and an access of either kind under it
is ignored. -/
theorem resetInputResetsAndIgnoresAccesses : Obligations.ResetInputResetsAndIgnoresAccesses := by
  refine ⟨fun s rest hs => step_rst hs, fun s off bytes v rest hr hp hoff hs => ?access, fun s rest hs => step_rst hs⟩
  case access =>
    obtain hread | hwrite := hs
    · exact step_read_of_rst hread hoff hr hp
    · exact step_write_of_rst hwrite hoff hr hp

/-! ## A running command ends (70_reset_and_hazards.md R150, R151) -/

/-- No command runs, and the last one is done. -/
def State.Ended (t : State) : Prop := t.op = .none ∧ t.done = true

/-- Within `bound` steps, and not without one, the run from `s` reaches a state where the command has ended. -/
def State.EndsWithin (s : State) (bound : Nat) : Prop :=
  ∃ n t, 0 < n ∧ n ≤ bound ∧ Host.Core.run Sys2Proof.core n s = .next t ∧ t.Ended

theorem State.EndsWithin.of_step {s t : State} {bound : Nat} (h : step s = .next t) (ht : t.Ended) (hb : 0 < bound) :
    s.EndsWithin bound :=
  ⟨1, t, Nat.one_pos, hb, run_succ 0 h, ht⟩

/-- Every error entry ends the command it comes from (60_exceptions.md R125). -/
theorem ended_raise (s : State) (e : ErrCode) (i0 i1 : Word) : (s.raise e i0 i1).Ended := ⟨rfl, rfl⟩

theorem ended_complete (s : State) : s.complete.Ended := ⟨rfl, rfl⟩

theorem ended_derived (s : State) (k : Bytes32) : (s.derived k).Ended := ⟨rfl, rfl⟩

/-- PARSE_HEADER has one engine step, whatever its outcome (40_header.md R77). -/
theorem ended_parseStep (s : State) : (parseStep s).Ended := by
  obtain ⟨e, i0, i1, h, -⟩ | ⟨c, h⟩ := parseStep_shape s <;> rw [h]
  · exact ended_raise s e i0 i1
  · exact ended_complete _

/-- BODY_INIT has one engine step, whatever its outcome (42_body_cbc.md R93). -/
theorem ended_initStep (s : State) : (initStep s).Ended := by
  obtain ⟨e, i0, i1, h, -⟩ | ⟨c, b, h⟩ := initStep_shape s <;> rw [h]
  · exact ended_raise s e i0 i1
  · exact ended_complete _

/-- DECRYPT_BLOCK has one engine step (42_body_cbc.md R94). -/
theorem ended_decryptStep (s : State) : (decryptStep s).Ended := ended_complete _

/-- A derivation not yet started ends with the start step's error, or after its start step, every round and the finish step
(41_kdf.md R84 to R86). -/
theorem DerivesAlone.endsWithin_of_start {s : State} (h : DerivesAlone s) (hk : s.kstep = .start) :
    s.EndsWithin (s.hdrRounds.toNat + 2) := by
  have hstep := h.step_eq.trans (congrArg _ (deriveStep_of_start (s := { s with agent := .engine }) hk))
  obtain ⟨-, e⟩ | ⟨-, -, e⟩ | ⟨hl, hm, -⟩ := deriveStart_cases { s with agent := .engine }
  · exact .of_step (hstep.trans (congrArg _ e)) (ended_raise _ _ _ _) (Nat.succ_pos _)
  · exact .of_step (hstep.trans (congrArg _ e)) (ended_raise _ _ _ _) (Nat.succ_pos _)
  · exact ⟨_, _, Nat.succ_pos _, Nat.le_refl _, run_derivation h hk hl hm, ended_derived _ _⟩

/-- A derivation between its rounds ends after the rounds still to do and the finish step: its count does not pass the round
count (41_kdf.md R85). -/
theorem DerivesAlone.endsWithin_of_stretch {s : State} (h : DerivesAlone s) (hk : s.kstep = .stretch)
    (hc : s.kdfCount ≤ s.hdrRounds) : s.EndsWithin (s.hdrRounds.toNat + 2) := by
  have hn : s.kdfCount.toNat + (s.hdrRounds.toNat - s.kdfCount.toNat) = s.hdrRounds.toNat :=
    Nat.add_sub_of_le (BitVec.le_def.1 hc)
  exact ⟨_, _, Nat.succ_pos _, by omega, run_rounds _ h hk hn, ended_derived _ _⟩

/-- In a session DERIVE_KEY left to the engine ends, wherever it stands. -/
theorem DerivesAlone.endsWithin {s : State} (h : DerivesAlone s) (hi : SessionInv s) :
    s.EndsWithin (s.hdrRounds.toNat + 2) := by
  cases hk : s.kstep with
  | start => exact h.endsWithin_of_start hk
  | stretch =>
    obtain ⟨-, hcount, -⟩ := hi.derivationBounded hk
    exact h.endsWithin_of_stretch hk hcount

/-- Settles O52: the commands but DERIVE_KEY by their one engine step, and DERIVE_KEY by the run of its rounds. -/
theorem runningCommandsEnd : Obligations.RunningCommandsEnd := by
  intro s hi ho hs hr hc hp
  change s.EndsWithin _
  have engine {i : Instr} (hop : s.op.instr = some i) := step_engine hop hs hr hc hp
  cases hop : s.op with
  | none => exact absurd hop ho
  | parse =>
    exact .of_step ((engine (congrArg Op.instr hop)).trans (exec_parse_engine rfl hop)) (ended_parseStep _) Nat.one_pos
  | derive => exact DerivesAlone.endsWithin ⟨hop, hs, hr, hc, hp⟩ hi
  | init =>
    exact .of_step ((engine (congrArg Op.instr hop)).trans (exec_init_engine rfl hop)) (ended_initStep _) Nat.one_pos
  | decrypt =>
    exact .of_step ((engine (congrArg Op.instr hop)).trans (exec_decrypt_engine rfl hop)) (ended_decryptStep _) Nat.one_pos

end Sys2Proof.Machine
end
